-- ==== Sys2Proof/Word.lean ====
section
/-! DEFINITION. The plain types every other file uses: the command word and the fixed-width values of the engine. -/

namespace Sys2Proof

/-- One addressable register, 8 bits (R21). -/
abbrev Byte := BitVec 8

/-- One command word `cw[127:0]` (R81). -/
abbrev CmdWord := BitVec 128

/-- A 12-bit waveform value (R174). -/
abbrev Wave := BitVec 12

/-- A cycle sample or an output sample: 16 bits, two's complement (R46, R47, R86). -/
abbrev Sample := BitVec 16

/-- The address of a register, 0 to 24 (R60). -/
abbrev RegAddr := Fin 25

/-- The index `v` of a voice, 0 to 2; its number in the spec's prose is `v + 1` (R8, glossary). -/
abbrev VoiceId := Fin 3

end Sys2Proof
end

