-- ==== Sys2Proof/Config.lean ====
section
/-! DEFINITION. What is fixed for a machine and not changed by a run: the two enumerations of the configuration, the parameters of R6 and
the configuration record `Tables` of R7. The fields the spec leaves OPEN are opaque constants: nothing is known of their values. -/

namespace Sys2Proof

/-- The chip model, in the document's order (R36, R83). -/
inductive ChipModel where
  | mos6581
  | mos8580
deriving DecidableEq, Repr, Inhabited

/-- The sampling method, in the document's order (R36, R84). -/
inductive SamplingMethod where
  | fast
  | interpolate
  | resample
  | resampleFastmem
deriving DecidableEq, Repr, Inhabited

namespace Config

/-- `RINGSIZE`, the length of the resampler's history in cycle samples (R6, D41). -/
abbrev ringSize : Nat := 16384

/-- `OUT_DIV`, the divisor of the output stage (R6, R248). -/
def outDiv : Int := 11

/-- What `FIR` returns (R268): `FIR_N = tapsPred + 1`, `FIR_RES = phasesPred + 1`, `FIR_SHIFT = shift`, `K[p][j] = weight p j`.
The bound on `tapsPred` is the well-formedness condition `FIR_N + 1 <= RINGSIZE`, so every value of this type is a well-formed
kernel and an ill-formed one cannot be configured (R268, U11; log entry 9). -/
structure Kernel where
  tapsPred : Fin (16384 - 1)
  phasesPred : Nat
  shift : Nat
  weight : Nat → Nat → Int
deriving Inhabited

/-- `FIR_N` (R268). -/
def Kernel.taps (k : Kernel) : Nat := k.tapsPred.val + 1

/-- `FIR_RES` (R268). -/
def Kernel.phases (k : Kernel) : Nat := k.phasesPred + 1

/-- The configuration record of R7, with the two OPEN counts of R6. It is a parameter of the engine's step functions (R11), not state.
`DIST` is stored for MOS6581 only: for MOS8580 R246 fixes it to the identity. -/
structure Tables where
  /-- `RATE_PERIOD` (R191). -/
  ratePeriod : BitVec 4 → Nat
  /-- `EXP_PERIOD` (R192). -/
  expPeriod : BitVec 8 → Nat
  /-- `SUSTAIN_LEVEL` (R193). -/
  sustainLevel : BitVec 4 → BitVec 8
  /-- `COMB(model, sel, tri, saw, pul, noi)` (R175). -/
  comb : ChipModel → BitVec 4 → Wave → Wave → Wave → Wave → Wave
  /-- `WAVE_DAC` (R222). -/
  waveDac : ChipModel → Wave → BitVec 12
  /-- `ENV_DAC` (R222). -/
  envDac : ChipModel → BitVec 8 → BitVec 8
  /-- `WAVE_ZERO` (R222). -/
  waveZero : ChipModel → Int
  /-- `VOICE_DC` (R221, R222). -/
  voiceDc : ChipModel → Int
  /-- `MIXER_DC` (R247). -/
  mixerDc : ChipModel → Int
  /-- `W0` (R242). -/
  w0 : ChipModel → BitVec 11 → Nat
  /-- `INVQ` (R243). -/
  invQ : ChipModel → BitVec 4 → Nat
  /-- `DIST(MOS6581, x)` (R246). -/
  dist6581 : Int → Int
  /-- `EXT_IN` (R225). -/
  extIn : Int
  /-- `FIR(method, clk, out, pass)` (R268). -/
  fir : SamplingMethod → Nat → Nat → Option Int → Kernel
  /-- `CYCLE_BITS` (R6, R304). -/
  cycleBits : Nat
  /-- `WQ_DEPTH`; `none` is the suggested unbounded queue (R6, R35). -/
  wqDepth : Option Nat

/-- `WAVE_DAC`, OPEN (D30, N9): 12-bit values per chip model, none of them known. -/
opaque waveDac : ChipModel → Wave → BitVec 12

/-- `ENV_DAC`, OPEN (D30, N9): 8-bit values per chip model, none of them known. -/
opaque envDac : ChipModel → BitVec 8 → BitVec 8

/-- `W0`, OPEN (D35, N10): the cutoff curve, a non-negative integer per chip model and cutoff value. -/
opaque w0 : ChipModel → BitVec 11 → Nat

/-- `DIST(MOS6581, x)`, OPEN (D36, N11): a total function from integers to integers. -/
opaque dist6581 : Int → Int

/-- `FIR`, OPEN (D41, N12): the resampling kernel of a sampling configuration. -/
opaque fir : SamplingMethod → Nat → Nat → Option Int → Kernel

end Config

end Sys2Proof
end

