-- ==== Sys2Proof/Syntax.lean ====
section
/-! DEFINITION. The command set: one constructor per row of spec/opcode_table.json (R80, R87, R91). Operands are the abstract operands
of R80 and R85, integers where the spec says integer, so that the abstract interface (any address, any stamp, any count) is covered and
not only what a 128-bit word can carry; WellFormed.lean says which instructions a word can carry. -/

namespace Sys2Proof

/-- A host command. `model` and `method` are the codes of R83 and R84, which may name nothing (R102). -/
inductive Instr where
  /-- NEW (R101). -/
  | new (model : BitVec 2) (method : BitVec 3) (clk out : Int) (pass : Option Int)
  /-- SETSAMPLING (R103). -/
  | setSampling (method : BitVec 3) (clk out : Int) (pass : Option Int)
  /-- RESET (R104). -/
  | reset
  /-- WRITE.FREQ_LO_1, address 0 (R123). -/
  | writeFreqLo1 (value stamp : Int)
  /-- WRITE.FREQ_HI_1, address 1 (R124). -/
  | writeFreqHi1 (value stamp : Int)
  /-- WRITE.PW_LO_1, address 2 (R125). -/
  | writePwLo1 (value stamp : Int)
  /-- WRITE.PW_HI_1, address 3 (R126). -/
  | writePwHi1 (value stamp : Int)
  /-- WRITE.CONTROL_1, address 4 (R127). -/
  | writeControl1 (value stamp : Int)
  /-- WRITE.ATTACK_DECAY_1, address 5 (R128). -/
  | writeAttackDecay1 (value stamp : Int)
  /-- WRITE.SUSTAIN_RELEASE_1, address 6 (R129). -/
  | writeSustainRelease1 (value stamp : Int)
  /-- WRITE.FREQ_LO_2, address 7 (R130). -/
  | writeFreqLo2 (value stamp : Int)
  /-- WRITE.FREQ_HI_2, address 8 (R131). -/
  | writeFreqHi2 (value stamp : Int)
  /-- WRITE.PW_LO_2, address 9 (R132). -/
  | writePwLo2 (value stamp : Int)
  /-- WRITE.PW_HI_2, address 10 (R133). -/
  | writePwHi2 (value stamp : Int)
  /-- WRITE.CONTROL_2, address 11 (R134). -/
  | writeControl2 (value stamp : Int)
  /-- WRITE.ATTACK_DECAY_2, address 12 (R135). -/
  | writeAttackDecay2 (value stamp : Int)
  /-- WRITE.SUSTAIN_RELEASE_2, address 13 (R136). -/
  | writeSustainRelease2 (value stamp : Int)
  /-- WRITE.FREQ_LO_3, address 14 (R137). -/
  | writeFreqLo3 (value stamp : Int)
  /-- WRITE.FREQ_HI_3, address 15 (R138). -/
  | writeFreqHi3 (value stamp : Int)
  /-- WRITE.PW_LO_3, address 16 (R139). -/
  | writePwLo3 (value stamp : Int)
  /-- WRITE.PW_HI_3, address 17 (R140). -/
  | writePwHi3 (value stamp : Int)
  /-- WRITE.CONTROL_3, address 18 (R141). -/
  | writeControl3 (value stamp : Int)
  /-- WRITE.ATTACK_DECAY_3, address 19 (R142). -/
  | writeAttackDecay3 (value stamp : Int)
  /-- WRITE.SUSTAIN_RELEASE_3, address 20 (R143). -/
  | writeSustainRelease3 (value stamp : Int)
  /-- WRITE.FC_LO, address 21 (R144). -/
  | writeFcLo (value stamp : Int)
  /-- WRITE.FC_HI, address 22 (R145). -/
  | writeFcHi (value stamp : Int)
  /-- WRITE.RES_FILT, address 23 (R146). -/
  | writeResFilt (value stamp : Int)
  /-- WRITE.MODE_VOL, address 24 (R147). -/
  | writeModeVol (value stamp : Int)
  /-- WRITE.OUT_OF_RANGE, every address that selects nothing (R148). -/
  | writeOutOfRange (addr value stamp : Int)
  /-- READ of an address 0 to 24 (R106). -/
  | read (addr : Int)
  /-- READ.OUT_OF_RANGE (R106). -/
  | readOutOfRange (addr : Int)
  /-- CLOCK (R107). -/
  | clock (n : Int)
  /-- RESERVED: a word that names no command, kept whole (R89, R108). -/
  | reserved (w : CmdWord)
deriving DecidableEq, Repr

/-- The register forms of WRITE (R87): the address, value and stamp of a `WRITE.<register>` command. -/
def Instr.registerWrite : Instr → Option (RegAddr × Int × Int)
  | .writeFreqLo1 value stamp => some (0, value, stamp)
  | .writeFreqHi1 value stamp => some (1, value, stamp)
  | .writePwLo1 value stamp => some (2, value, stamp)
  | .writePwHi1 value stamp => some (3, value, stamp)
  | .writeControl1 value stamp => some (4, value, stamp)
  | .writeAttackDecay1 value stamp => some (5, value, stamp)
  | .writeSustainRelease1 value stamp => some (6, value, stamp)
  | .writeFreqLo2 value stamp => some (7, value, stamp)
  | .writeFreqHi2 value stamp => some (8, value, stamp)
  | .writePwLo2 value stamp => some (9, value, stamp)
  | .writePwHi2 value stamp => some (10, value, stamp)
  | .writeControl2 value stamp => some (11, value, stamp)
  | .writeAttackDecay2 value stamp => some (12, value, stamp)
  | .writeSustainRelease2 value stamp => some (13, value, stamp)
  | .writeFreqLo3 value stamp => some (14, value, stamp)
  | .writeFreqHi3 value stamp => some (15, value, stamp)
  | .writePwLo3 value stamp => some (16, value, stamp)
  | .writePwHi3 value stamp => some (17, value, stamp)
  | .writeControl3 value stamp => some (18, value, stamp)
  | .writeAttackDecay3 value stamp => some (19, value, stamp)
  | .writeSustainRelease3 value stamp => some (20, value, stamp)
  | .writeFcLo value stamp => some (21, value, stamp)
  | .writeFcHi value stamp => some (22, value, stamp)
  | .writeResFilt value stamp => some (23, value, stamp)
  | .writeModeVol value stamp => some (24, value, stamp)
  | .new _ _ _ _ _ => none
  | .setSampling _ _ _ _ => none
  | .reset => none
  | .writeOutOfRange _ _ _ => none
  | .read _ => none
  | .readOutOfRange _ => none
  | .clock _ => none
  | .reserved _ => none

end Sys2Proof
end

