-- ==== Sys2Proof/WellFormed.lean ====
section
/-! DEFINITION. Which instructions a command word can carry (R82, R85), and which words name no command (R89). -/

namespace Sys2Proof

/-- `x` fits a signed field of `n + 1` bits (R82). -/
def fitsSigned (n : Nat) (x : Int) : Bool := decide (-2 ^ n ≤ x) && decide (x < 2 ^ n)

/-- `x` fits an unsigned field of `n` bits (R82). -/
def fitsUnsigned (n : Nat) (x : Int) : Bool := decide (0 ≤ x) && decide (x < 2 ^ n)

/-- An optional pass-band value fits the 32-bit field `PASS` (R82). -/
def fitsPass : Option Int → Bool
  | none => true
  | some p => fitsSigned 31 p

/-- The value and stamp of a WRITE fit `DATA` and `AT` (R82, R85). -/
def fitsWrite (value stamp : Int) : Bool := fitsUnsigned 24 value && fitsSigned 63 stamp

/-- The field of `n` bits of a command word that starts at bit `lo` (R8). -/
def cwField (w : CmdWord) (lo n : Nat) : BitVec n := w.extractLsb' lo n

/-- Formats N and S: the bits of the pass-band operand obey "must be 0 when `PBEN = 0`" (R82). -/
def passOk (w : CmdWord) : Bool := cwField w 118 1 == 1#1 || cwField w 0 32 == 0#32

/-- The words that name no command (R89): a reserved opcode, a non-zero bit in a `zero` field of the word's format, or `PBEN = 0` with
`PASS` not 0. -/
def isReservedWord (w : CmdWord) : Bool :=
  match (cwField w 124 4).toNat with
  | 0 => !(cwField w 96 22 == 0#22) || !passOk w
  | 1 => !(cwField w 122 2 == 0#2) || !(cwField w 96 22 == 0#22) || !passOk w
  | 2 => !(cwField w 0 124 == 0#124)
  | 3 => !(cwField w 64 28 == 0#28)
  | 4 => !(cwField w 0 116 == 0#116)
  | 5 => !(cwField w 64 60 == 0#60)
  | _ => true

/-- The instruction is one a command word carries: every operand fits its field, the address is the row's, and a reserved word is one. -/
def Instr.wf : Instr → Bool
  | .new _ _ clk out pass => fitsSigned 31 clk && fitsSigned 31 out && fitsPass pass
  | .setSampling _ clk out pass => fitsSigned 31 clk && fitsSigned 31 out && fitsPass pass
  | .reset => true
  | .writeFreqLo1 value stamp => fitsWrite value stamp
  | .writeFreqHi1 value stamp => fitsWrite value stamp
  | .writePwLo1 value stamp => fitsWrite value stamp
  | .writePwHi1 value stamp => fitsWrite value stamp
  | .writeControl1 value stamp => fitsWrite value stamp
  | .writeAttackDecay1 value stamp => fitsWrite value stamp
  | .writeSustainRelease1 value stamp => fitsWrite value stamp
  | .writeFreqLo2 value stamp => fitsWrite value stamp
  | .writeFreqHi2 value stamp => fitsWrite value stamp
  | .writePwLo2 value stamp => fitsWrite value stamp
  | .writePwHi2 value stamp => fitsWrite value stamp
  | .writeControl2 value stamp => fitsWrite value stamp
  | .writeAttackDecay2 value stamp => fitsWrite value stamp
  | .writeSustainRelease2 value stamp => fitsWrite value stamp
  | .writeFreqLo3 value stamp => fitsWrite value stamp
  | .writeFreqHi3 value stamp => fitsWrite value stamp
  | .writePwLo3 value stamp => fitsWrite value stamp
  | .writePwHi3 value stamp => fitsWrite value stamp
  | .writeControl3 value stamp => fitsWrite value stamp
  | .writeAttackDecay3 value stamp => fitsWrite value stamp
  | .writeSustainRelease3 value stamp => fitsWrite value stamp
  | .writeFcLo value stamp => fitsWrite value stamp
  | .writeFcHi value stamp => fitsWrite value stamp
  | .writeResFilt value stamp => fitsWrite value stamp
  | .writeModeVol value stamp => fitsWrite value stamp
  | .writeOutOfRange addr value stamp => decide (25 ≤ addr) && decide (addr ≤ 255) && fitsWrite value stamp
  | .read addr => decide (0 ≤ addr) && decide (addr ≤ 24)
  | .readOutOfRange addr => decide (25 ≤ addr) && decide (addr ≤ 255)
  | .clock n => fitsSigned 63 n
  | .reserved w => isReservedWord w

end Sys2Proof
end

