-- ==== Sys2Proof/Decode.lean ====
section
/-! DEFINITION. The command word: the decoder, total on all 2^128 words (R81, R82, R85, R87, R89), the encoder written from the same
formats, and the rows of spec/opcode_table.json with the rule "first match wins" (R87). -/

namespace Sys2Proof

/-- `PASS` of formats N and S: present when `PBEN = 1` (R82, R85). -/
def decodePass (w : CmdWord) : Option Int :=
  if cwField w 118 1 = 1#1 then some (cwField w 0 32).toInt else none

/-- The register forms of WRITE by `ADDR`; every other address is WRITE.OUT_OF_RANGE (R87, R148). -/
def writeRow (addr : Nat) (value stamp : Int) : Instr :=
  match addr with
  | 0 => .writeFreqLo1 value stamp
  | 1 => .writeFreqHi1 value stamp
  | 2 => .writePwLo1 value stamp
  | 3 => .writePwHi1 value stamp
  | 4 => .writeControl1 value stamp
  | 5 => .writeAttackDecay1 value stamp
  | 6 => .writeSustainRelease1 value stamp
  | 7 => .writeFreqLo2 value stamp
  | 8 => .writeFreqHi2 value stamp
  | 9 => .writePwLo2 value stamp
  | 10 => .writePwHi2 value stamp
  | 11 => .writeControl2 value stamp
  | 12 => .writeAttackDecay2 value stamp
  | 13 => .writeSustainRelease2 value stamp
  | 14 => .writeFreqLo3 value stamp
  | 15 => .writeFreqHi3 value stamp
  | 16 => .writePwLo3 value stamp
  | 17 => .writePwHi3 value stamp
  | 18 => .writeControl3 value stamp
  | 19 => .writeAttackDecay3 value stamp
  | 20 => .writeSustainRelease3 value stamp
  | 21 => .writeFcLo value stamp
  | 22 => .writeFcHi value stamp
  | 23 => .writeResFilt value stamp
  | 24 => .writeModeVol value stamp
  | _ => .writeOutOfRange addr value stamp

/-- READ by `ADDR` (R87). -/
def readRow (addr : Nat) : Instr :=
  if addr ≤ 24 then .read addr else .readOutOfRange addr

/-- The instruction a word that is not reserved stands for, its operands assembled as in R85: `sext` of the signed fields, `zext` of
`ADDR` and `DATA`. -/
def decodeFields (w : CmdWord) : Instr :=
  match (cwField w 124 4).toNat with
  | 0 => .new (cwField w 122 2) (cwField w 119 3) (cwField w 64 32).toInt (cwField w 32 32).toInt (decodePass w)
  | 1 => .setSampling (cwField w 119 3) (cwField w 64 32).toInt (cwField w 32 32).toInt (decodePass w)
  | 2 => .reset
  | 3 => writeRow (cwField w 116 8).toNat (cwField w 92 24).toNat (cwField w 0 64).toInt
  | 4 => readRow (cwField w 116 8).toNat
  | 5 => .clock (cwField w 0 64).toInt
  | _ => .reserved w

/-- The decoder (R81 to R89): every word is one instruction, the reserved ones included. -/
def decode (w : CmdWord) : Instr := if isReservedWord w then .reserved w else decodeFields w

/-- The word of an instruction whose bits, numbered as the opcode table numbers them, are those of `w` below `nbits` and 0 above. -/
def tableWord (nbits w : Nat) : CmdWord := BitVec.ofNat 128 (w % 2 ^ nbits)

/-- What the decoder reads from an instruction whose bits are `w`, `nbits` of them given by the opcode table. -/
def decodeTableWord (nbits w : Nat) : Option Instr := some (decode (tableWord nbits w))

/-- Bits 118:96 and 31:0 of formats N and S: `PBEN`, the zero field, and `PASS` (R82). -/
def encodePass : Option Int → BitVec 1 × BitVec 32
  | none => (0#1, 0#32)
  | some p => (1#1, BitVec.ofInt 32 p)

/-- Format W (R82). -/
def encodeWrite (addr value stamp : Int) : CmdWord :=
  3#4 ++ BitVec.ofInt 8 addr ++ BitVec.ofInt 24 value ++ 0#28 ++ BitVec.ofInt 64 stamp

/-- Format R (R82). -/
def encodeRead (addr : Int) : CmdWord := 4#4 ++ BitVec.ofInt 8 addr ++ 0#116

/-- The encoder: the command word of a well-formed instruction, field by field from the formats of R82. -/
def encode : Instr → CmdWord
  | .new model method clk out pass =>
    0#4 ++ model ++ method ++ (encodePass pass).1 ++ 0#22 ++ BitVec.ofInt 32 clk ++ BitVec.ofInt 32 out ++ (encodePass pass).2
  | .setSampling method clk out pass =>
    1#4 ++ 0#2 ++ method ++ (encodePass pass).1 ++ 0#22 ++ BitVec.ofInt 32 clk ++ BitVec.ofInt 32 out ++ (encodePass pass).2
  | .reset => 2#4 ++ 0#124
  | .writeFreqLo1 value stamp => encodeWrite 0 value stamp
  | .writeFreqHi1 value stamp => encodeWrite 1 value stamp
  | .writePwLo1 value stamp => encodeWrite 2 value stamp
  | .writePwHi1 value stamp => encodeWrite 3 value stamp
  | .writeControl1 value stamp => encodeWrite 4 value stamp
  | .writeAttackDecay1 value stamp => encodeWrite 5 value stamp
  | .writeSustainRelease1 value stamp => encodeWrite 6 value stamp
  | .writeFreqLo2 value stamp => encodeWrite 7 value stamp
  | .writeFreqHi2 value stamp => encodeWrite 8 value stamp
  | .writePwLo2 value stamp => encodeWrite 9 value stamp
  | .writePwHi2 value stamp => encodeWrite 10 value stamp
  | .writeControl2 value stamp => encodeWrite 11 value stamp
  | .writeAttackDecay2 value stamp => encodeWrite 12 value stamp
  | .writeSustainRelease2 value stamp => encodeWrite 13 value stamp
  | .writeFreqLo3 value stamp => encodeWrite 14 value stamp
  | .writeFreqHi3 value stamp => encodeWrite 15 value stamp
  | .writePwLo3 value stamp => encodeWrite 16 value stamp
  | .writePwHi3 value stamp => encodeWrite 17 value stamp
  | .writeControl3 value stamp => encodeWrite 18 value stamp
  | .writeAttackDecay3 value stamp => encodeWrite 19 value stamp
  | .writeSustainRelease3 value stamp => encodeWrite 20 value stamp
  | .writeFcLo value stamp => encodeWrite 21 value stamp
  | .writeFcHi value stamp => encodeWrite 22 value stamp
  | .writeResFilt value stamp => encodeWrite 23 value stamp
  | .writeModeVol value stamp => encodeWrite 24 value stamp
  | .writeOutOfRange addr value stamp => encodeWrite addr value stamp
  | .read addr => encodeRead addr
  | .readOutOfRange addr => encodeRead addr
  | .clock n => 5#4 ++ 0#60 ++ BitVec.ofInt 64 n
  | .reserved w => w

/-- One row of spec/opcode_table.json: a word `w` matches when `w & mask = pattern` and the row's constraint holds (R87, R91). -/
structure OpcodeRow where
  mnemonic : String
  pattern : CmdWord
  mask : CmdWord
  constraint : CmdWord → Bool

/-- A row with no constraint. -/
def anyWord (_ : CmdWord) : Bool := true

/-- The constraint `PBEN = 1 or PASS = 0` of the NEW and SETSAMPLING rows (R87). -/
def pbenOrNoPass (w : CmdWord) : Bool := decide (w.getLsbD 118 = true ∨ w.toNat % 2 ^ 32 = 0)

/-- `ADDR`, bits 123:116, of a WRITE or READ word (R82). -/
def addrBits (w : CmdWord) : Nat := w.toNat / 2 ^ 116 % 2 ^ 8

/-- The rows of WRITE, in file order: the 25 register forms in address order, then WRITE.OUT_OF_RANGE (R87, R91). -/
def writeRows : List OpcodeRow := [
  ⟨"WRITE.FREQ_LO_1", 0x30000000000000000000000000000000#128, 0xFFF000000FFFFFFF0000000000000000#128, anyWord⟩,
  ⟨"WRITE.FREQ_HI_1", 0x30100000000000000000000000000000#128, 0xFFF000000FFFFFFF0000000000000000#128, anyWord⟩,
  ⟨"WRITE.PW_LO_1", 0x30200000000000000000000000000000#128, 0xFFF000000FFFFFFF0000000000000000#128, anyWord⟩,
  ⟨"WRITE.PW_HI_1", 0x30300000000000000000000000000000#128, 0xFFF000000FFFFFFF0000000000000000#128, anyWord⟩,
  ⟨"WRITE.CONTROL_1", 0x30400000000000000000000000000000#128, 0xFFF000000FFFFFFF0000000000000000#128, anyWord⟩,
  ⟨"WRITE.ATTACK_DECAY_1", 0x30500000000000000000000000000000#128, 0xFFF000000FFFFFFF0000000000000000#128, anyWord⟩,
  ⟨"WRITE.SUSTAIN_RELEASE_1", 0x30600000000000000000000000000000#128, 0xFFF000000FFFFFFF0000000000000000#128, anyWord⟩,
  ⟨"WRITE.FREQ_LO_2", 0x30700000000000000000000000000000#128, 0xFFF000000FFFFFFF0000000000000000#128, anyWord⟩,
  ⟨"WRITE.FREQ_HI_2", 0x30800000000000000000000000000000#128, 0xFFF000000FFFFFFF0000000000000000#128, anyWord⟩,
  ⟨"WRITE.PW_LO_2", 0x30900000000000000000000000000000#128, 0xFFF000000FFFFFFF0000000000000000#128, anyWord⟩,
  ⟨"WRITE.PW_HI_2", 0x30A00000000000000000000000000000#128, 0xFFF000000FFFFFFF0000000000000000#128, anyWord⟩,
  ⟨"WRITE.CONTROL_2", 0x30B00000000000000000000000000000#128, 0xFFF000000FFFFFFF0000000000000000#128, anyWord⟩,
  ⟨"WRITE.ATTACK_DECAY_2", 0x30C00000000000000000000000000000#128, 0xFFF000000FFFFFFF0000000000000000#128, anyWord⟩,
  ⟨"WRITE.SUSTAIN_RELEASE_2", 0x30D00000000000000000000000000000#128, 0xFFF000000FFFFFFF0000000000000000#128, anyWord⟩,
  ⟨"WRITE.FREQ_LO_3", 0x30E00000000000000000000000000000#128, 0xFFF000000FFFFFFF0000000000000000#128, anyWord⟩,
  ⟨"WRITE.FREQ_HI_3", 0x30F00000000000000000000000000000#128, 0xFFF000000FFFFFFF0000000000000000#128, anyWord⟩,
  ⟨"WRITE.PW_LO_3", 0x31000000000000000000000000000000#128, 0xFFF000000FFFFFFF0000000000000000#128, anyWord⟩,
  ⟨"WRITE.PW_HI_3", 0x31100000000000000000000000000000#128, 0xFFF000000FFFFFFF0000000000000000#128, anyWord⟩,
  ⟨"WRITE.CONTROL_3", 0x31200000000000000000000000000000#128, 0xFFF000000FFFFFFF0000000000000000#128, anyWord⟩,
  ⟨"WRITE.ATTACK_DECAY_3", 0x31300000000000000000000000000000#128, 0xFFF000000FFFFFFF0000000000000000#128, anyWord⟩,
  ⟨"WRITE.SUSTAIN_RELEASE_3", 0x31400000000000000000000000000000#128, 0xFFF000000FFFFFFF0000000000000000#128, anyWord⟩,
  ⟨"WRITE.FC_LO", 0x31500000000000000000000000000000#128, 0xFFF000000FFFFFFF0000000000000000#128, anyWord⟩,
  ⟨"WRITE.FC_HI", 0x31600000000000000000000000000000#128, 0xFFF000000FFFFFFF0000000000000000#128, anyWord⟩,
  ⟨"WRITE.RES_FILT", 0x31700000000000000000000000000000#128, 0xFFF000000FFFFFFF0000000000000000#128, anyWord⟩,
  ⟨"WRITE.MODE_VOL", 0x31800000000000000000000000000000#128, 0xFFF000000FFFFFFF0000000000000000#128, anyWord⟩,
  ⟨"WRITE.OUT_OF_RANGE", 0x30000000000000000000000000000000#128, 0xF00000000FFFFFFF0000000000000000#128, (fun w => decide (25 ≤ addrBits w))⟩]

/-- The 33 rows of spec/opcode_table.json, in file order (R91). -/
def opcodeTable : List OpcodeRow := [
  ⟨"NEW", 0x00000000000000000000000000000000#128, 0xF03FFFFF000000000000000000000000#128, pbenOrNoPass⟩,
  ⟨"SETSAMPLING", 0x10000000000000000000000000000000#128, 0xFC3FFFFF000000000000000000000000#128, pbenOrNoPass⟩,
  ⟨"RESET", 0x20000000000000000000000000000000#128, 0xFFFFFFFFFFFFFFFFFFFFFFFFFFFFFFFF#128, anyWord⟩] ++ writeRows ++ [
  ⟨"READ", 0x40000000000000000000000000000000#128, 0xF00FFFFFFFFFFFFFFFFFFFFFFFFFFFFF#128, (fun w => decide (addrBits w ≤ 24))⟩,
  ⟨"READ.OUT_OF_RANGE", 0x40000000000000000000000000000000#128, 0xF00FFFFFFFFFFFFFFFFFFFFFFFFFFFFF#128, (fun w => decide (25 ≤ addrBits w))⟩,
  ⟨"CLOCK", 0x50000000000000000000000000000000#128, 0xFFFFFFFFFFFFFFFF0000000000000000#128, anyWord⟩,
  ⟨"RESERVED", 0x00000000000000000000000000000000#128, 0x00000000000000000000000000000000#128, anyWord⟩]

/-- The row of a word: the first that matches (R87). -/
def firstRow (w : CmdWord) : Option OpcodeRow :=
  opcodeTable.find? fun r => decide (w &&& r.mask = r.pattern) && r.constraint w

/-- The mnemonic of an instruction, as the opcode table spells it. -/
def Instr.mnemonic : Instr → String
  | .new _ _ _ _ _ => "NEW"
  | .setSampling _ _ _ _ => "SETSAMPLING"
  | .reset => "RESET"
  | .writeFreqLo1 _ _ => "WRITE.FREQ_LO_1"
  | .writeFreqHi1 _ _ => "WRITE.FREQ_HI_1"
  | .writePwLo1 _ _ => "WRITE.PW_LO_1"
  | .writePwHi1 _ _ => "WRITE.PW_HI_1"
  | .writeControl1 _ _ => "WRITE.CONTROL_1"
  | .writeAttackDecay1 _ _ => "WRITE.ATTACK_DECAY_1"
  | .writeSustainRelease1 _ _ => "WRITE.SUSTAIN_RELEASE_1"
  | .writeFreqLo2 _ _ => "WRITE.FREQ_LO_2"
  | .writeFreqHi2 _ _ => "WRITE.FREQ_HI_2"
  | .writePwLo2 _ _ => "WRITE.PW_LO_2"
  | .writePwHi2 _ _ => "WRITE.PW_HI_2"
  | .writeControl2 _ _ => "WRITE.CONTROL_2"
  | .writeAttackDecay2 _ _ => "WRITE.ATTACK_DECAY_2"
  | .writeSustainRelease2 _ _ => "WRITE.SUSTAIN_RELEASE_2"
  | .writeFreqLo3 _ _ => "WRITE.FREQ_LO_3"
  | .writeFreqHi3 _ _ => "WRITE.FREQ_HI_3"
  | .writePwLo3 _ _ => "WRITE.PW_LO_3"
  | .writePwHi3 _ _ => "WRITE.PW_HI_3"
  | .writeControl3 _ _ => "WRITE.CONTROL_3"
  | .writeAttackDecay3 _ _ => "WRITE.ATTACK_DECAY_3"
  | .writeSustainRelease3 _ _ => "WRITE.SUSTAIN_RELEASE_3"
  | .writeFcLo _ _ => "WRITE.FC_LO"
  | .writeFcHi _ _ => "WRITE.FC_HI"
  | .writeResFilt _ _ => "WRITE.RES_FILT"
  | .writeModeVol _ _ => "WRITE.MODE_VOL"
  | .writeOutOfRange _ _ _ => "WRITE.OUT_OF_RANGE"
  | .read _ => "READ"
  | .readOutOfRange _ => "READ.OUT_OF_RANGE"
  | .clock _ => "CLOCK"
  | .reserved _ => "RESERVED"

end Sys2Proof
end

