-- ==== Sys2Proof/Machine/State.lean ====
section
/-! DEFINITION. The state of the machine as plain data: the instance (R20), every piece of state rules R21 to R52 give a running engine,
the host's command words not yet taken, and the response of the last command (R86). -/

namespace Sys2Proof.Machine

/-- The register file `reg[0..24]` (R21). -/
abbrev RegFile := Vector Byte 25

/-- The stage of an envelope generator (R40). -/
inductive EnvState where
  | attack
  | decaySustain
  | release
deriving DecidableEq, Repr, Inhabited

/-- The state of one voice (R37 to R43). -/
structure Voice where
  /-- Phase accumulator (R37). -/
  acc : BitVec 24
  /-- Noise shift register (R38). -/
  sr : BitVec 23
  /-- Snapshot: the accumulator's top bit as the last cycle step left it (R39). -/
  snapMsb : Bool
  /-- Snapshot: the last cycle step took that bit from 1 to 0 (R39). -/
  snapFall : Bool
  /-- Envelope stage (R40). -/
  envState : EnvState
  /-- Envelope level (R41). -/
  env : BitVec 8
  /-- Envelope rate counter (R42). -/
  rc : BitVec 15
  /-- Exponential counter, 0 to 29 (R43; the bound is an invariant, Safety.lean). -/
  ec : Nat
deriving DecidableEq, Repr, Inhabited

/-- The filter's state variables, mathematical integers (R44). -/
structure FilterState where
  vhp : Int
  vbp : Int
  vlp : Int
deriving DecidableEq, Repr, Inhabited

/-- The resampler's state (R45 to R47). `hist` lists the cycle samples newest first; `hist[j]` beyond the end of the list is 0, and the
list ends in no 0 and is no longer than RINGSIZE, so equal histories are equal lists (log entry 10). -/
structure ResamplerState where
  /-- Output-instant accumulator (R45). -/
  racc : Nat
  /-- The cycle sample of the previous cycle step (R46). -/
  yPrev : Sample
  /-- The history of cycle samples (R47). -/
  hist : List Sample
deriving DecidableEq, Repr, Inhabited

/-- The sampling configuration `samp` (R36). -/
structure SamplingConfig where
  method : SamplingMethod
  clk : Nat
  out : Nat
  pass : Option Int
deriving DecidableEq, Repr, Inhabited

/-- The two sticky diagnostic flags (R52). -/
structure Diag where
  nmw : Bool
  underrun : Bool
deriving DecidableEq, Repr, Inhabited

/-- A register write whose stamp is in the future: one triple of `wq` (R35). `value` is as issued, not yet masked (R120). -/
structure PendingWrite where
  stamp : Int
  addr : RegAddr
  value : Int
deriving DecidableEq, Repr, Inhabited

/-- The state of a running engine (R21, R34 to R47, R52). -/
structure Engine where
  /-- The chip model, set by NEW (R36). -/
  model : ChipModel
  /-- The sampling configuration (R36). -/
  samp : SamplingConfig
  /-- The cycle counter (R34). -/
  cyc : Int
  /-- The pending-write queue, head first (R35). -/
  wq : List PendingWrite
  /-- The diagnostic flags (R52). -/
  diag : Diag
  /-- The register file (R21). -/
  reg : RegFile
  /-- The three voices (R37 to R43). -/
  voices : Vector Voice 3
  /-- The filter (R44). -/
  filter : FilterState
  /-- The resampler (R45 to R47). -/
  resampler : ResamplerState
deriving DecidableEq, Repr

/-- An instance: no engine yet, or a running one (R20). -/
inductive Instance where
  | unconstructed
  | running (e : Engine)
deriving DecidableEq, Repr

/-- The error classes of R290. -/
inductive ErrorClass where
  | invalidRegisterAddress
  | nonMonotonicCycleWrite
  | invalidSamplingConfig
  | resamplerBufferUnderrun
  | reservedEncoding
deriving DecidableEq, Repr, Inhabited

/-- The response of a command: 4 bits of status, one byte of data, and the samples (R86). -/
structure Response where
  status : BitVec 4
  data : Byte
  samples : List Sample
deriving DecidableEq, Repr, Inhabited

/-- The state of the machine. `inbox` and `response` are the model's own: the host's side of the command interface (log entries 1, 2). -/
structure State where
  /-- Command words the host has issued and the engine has not taken yet, oldest first (R11, R81). -/
  inbox : List CmdWord
  /-- The instance (R20). -/
  inst : Instance
  /-- The response of the last command, `none` before the first (R13, R86). -/
  response : Option Response
deriving DecidableEq, Repr

/-- Why the machine stops with a fault. -/
inductive Fault where
  /-- `FilterOverflow` (R249, R303): a cycle step took one of `Vhp`, `Vbp`, `Vlp` out of the signed 32-bit range. Raised by CLOCK only.
  Safe: the spec vouches for no later sample, and the model goes no further. -/
  | filterOverflow
deriving DecidableEq, Repr

/-- Why the machine takes no step. -/
inductive Refusal where
  /-- Raised by an arm of exec that has no meaning yet; no arm of this model raises it. Safe. -/
  | notModelled (mnemonic : String)
  /-- The host has issued no command (`inbox` is empty): nothing acts (R11). Raised by the step only. Safe. -/
  | awaitingCommand
  /-- A command other than NEW on an `Unconstructed` instance (R109). Safe: the spec gives it no meaning. -/
  | notConstructed
  /-- NEW on a `Running` instance (R109). Safe: the spec gives it no meaning. -/
  | alreadyConstructed
  /-- A CLOCK that would pass CYCLE_MAX, or a WRITE stamped above it (R304). Safe: the spec gives it no meaning. -/
  | beyondCycleMax
  /-- A WRITE when `wq` already holds WQ_DEPTH entries (R105 (e), U5). Safe; unreachable with the unbounded queue of `tables`. -/
  | queueFull
deriving DecidableEq, Repr

/-- The machine as it starts: an `Unconstructed` instance (R20), no command issued, no response given. The registers of an engine have
their reset values from NEW on (R53, `powerOn`). -/
def State.reset : State := { inbox := [], inst := .unconstructed, response := none }

end Sys2Proof.Machine
end

