-- ==== Sys2Proof/Machine/Operands.lean ====
section
/-! DEFINITION. Operands: the integer arithmetic of R9, the decoded views of the register file (R24 to R31), and the operands of a
configuration (R83, R84, R102). -/

namespace Sys2Proof.Machine

/-- `clamp(x, lo, hi)` (R9). -/
def clamp (x lo hi : Int) : Int := if x < lo then lo else if hi < x then hi else x

/-- `clamp16` (R9). -/
def clamp16 (x : Int) : Int := clamp x (-32768) 32767

/-- `x >> k`, the arithmetic right shift: `floor(x / 2^k)` (R9). -/
def shiftDown (x : Int) (k : Nat) : Int := x / 2 ^ k

/-- `a div b` for `b > 0`: `floor(a / b)` (R9). -/
def floorDiv (a b : Int) : Int := a / b

/-- A value as a 16-bit signed sample (R86). -/
def toSample (x : Int) : Sample := BitVec.ofInt 16 x

/-- The address operand of WRITE and READ: the register it selects, if any (R61). -/
def registerAt (addr : Int) : Option RegAddr :=
  if h : 0 ≤ addr ∧ addr ≤ 24 then some ⟨addr.toNat, by omega⟩ else none

/-- `reg[7v + k]`: the `k`-th register of voice `v` (R22). -/
def voiceReg (r : RegFile) (v : VoiceId) (k : Fin 7) : Byte := r[7 * v.val + k.val]'(by omega)

/-- `freq(v)` (R24). -/
def freq (r : RegFile) (v : VoiceId) : BitVec 16 := voiceReg r v 1 ++ voiceReg r v 0

/-- `pw(v)` (R25). -/
def pulseWidth (r : RegFile) (v : VoiceId) : BitVec 12 := (voiceReg r v 3).extractLsb' 0 4 ++ voiceReg r v 2

/-- The control register of voice `v`, `reg[7v + 4]` (R26). -/
def controlByte (r : RegFile) (v : VoiceId) : Byte := voiceReg r v 4

/-- `gate(v)`, bit 0 of the control register (R26). -/
def gate (r : RegFile) (v : VoiceId) : Bool := (controlByte r v).getLsbD 0

/-- `sync(v)`, bit 1 (R26). -/
def sync (r : RegFile) (v : VoiceId) : Bool := (controlByte r v).getLsbD 1

/-- `ring(v)`, bit 2 (R26). -/
def ring (r : RegFile) (v : VoiceId) : Bool := (controlByte r v).getLsbD 2

/-- `test(v)`, bit 3 (R26). -/
def testBit (r : RegFile) (v : VoiceId) : Bool := (controlByte r v).getLsbD 3

/-- `wsel(v)`, bits 7:4: bit 0 TRIANGLE, 1 SAWTOOTH, 2 PULSE, 3 NOISE (R26). -/
def waveSelect (r : RegFile) (v : VoiceId) : BitVec 4 := (controlByte r v).extractLsb' 4 4

/-- `attack(v)` (R27). -/
def attackRate (r : RegFile) (v : VoiceId) : BitVec 4 := (voiceReg r v 5).extractLsb' 4 4

/-- `decay(v)` (R27). -/
def decayRate (r : RegFile) (v : VoiceId) : BitVec 4 := (voiceReg r v 5).extractLsb' 0 4

/-- `sustain(v)` (R28). -/
def sustain (r : RegFile) (v : VoiceId) : BitVec 4 := (voiceReg r v 6).extractLsb' 4 4

/-- `release(v)` (R28). -/
def releaseRate (r : RegFile) (v : VoiceId) : BitVec 4 := (voiceReg r v 6).extractLsb' 0 4

/-- `fc` (R29). -/
def cutoff (r : RegFile) : BitVec 11 := r[22] ++ r[21].extractLsb' 0 3

/-- `res` (R30). -/
def resonance (r : RegFile) : BitVec 4 := r[23].extractLsb' 4 4

/-- `filtex` (R30). -/
def filtex (r : RegFile) : Bool := r[23].getLsbD 3

/-- `filt(v)` (R30). -/
def filt (r : RegFile) (v : VoiceId) : Bool := r[23].getLsbD v.val

/-- `vol` (R31). -/
def volume (r : RegFile) : BitVec 4 := r[24].extractLsb' 0 4

/-- `lp` (R31). -/
def lowPass (r : RegFile) : Bool := r[24].getLsbD 4

/-- `bp` (R31). -/
def bandPass (r : RegFile) : Bool := r[24].getLsbD 5

/-- `hp` (R31). -/
def highPass (r : RegFile) : Bool := r[24].getLsbD 6

/-- `v3off` (R31). -/
def voice3Off (r : RegFile) : Bool := r[24].getLsbD 7

/-- The chip model a `MODEL` code names (R83). -/
def modelOfCode (c : BitVec 2) : Option ChipModel :=
  match c.toNat with
  | 0 => some .mos6581
  | 1 => some .mos8580
  | _ => none

/-- The sampling method a `METHOD` code names (R84). -/
def methodOfCode (c : BitVec 3) : Option SamplingMethod :=
  match c.toNat with
  | 0 => some .fast
  | 1 => some .interpolate
  | 2 => some .resample
  | 3 => some .resampleFastmem
  | _ => none

/-- The sampling part of `VALID` (R102): the configuration, if the method is one and both rates are positive. `pass` is not checked
(R101, D43). -/
def validSampling (method : BitVec 3) (clk out : Int) (pass : Option Int) : Option SamplingConfig :=
  match methodOfCode method with
  | none => none
  | some m => if 0 < clk ∧ 0 < out then some { method := m, clk := clk.toNat, out := out.toNat, pass := pass } else none

end Sys2Proof.Machine
end

