-- ==== Sys2Proof/Machine/Flags.lean ====
section
/-! DEFINITION. The single-bit conditions that steer the engine (R50): edges of control bits, the snapshot bits, the noise clock, and the
range the filter state must keep. -/

namespace Sys2Proof.Machine

/-- A bit goes from 0 to 1. -/
def rises (old new : Bool) : Bool := !old && new

/-- A bit goes from 1 to 0. -/
def falls (old new : Bool) : Bool := old && !new

/-- `new_fall[v]`: accumulator bit 23 goes from 1 to 0 in the step (R164, R166). -/
def topBitFalls (acc acc' : BitVec 24) : Bool := falls (acc.getLsbD 23) (acc'.getLsbD 23)

/-- The noise register shifts in this step: TEST clear and accumulator bit 19 rises (R171). -/
def noiseClocks (test : Bool) (acc acc' : BitVec 24) : Bool := !test && rises (acc.getLsbD 19) (acc'.getLsbD 19)

/-- A sync reset happens in this step: SYNC set, TEST clear, and the source's top bit fell in the step before (R165). -/
def syncResets (r : RegFile) (v : VoiceId) (srcFall : Bool) : Bool := !testBit r v && sync r v && srcFall

/-- The triangle's fold bit (R168). -/
def foldBit (r : RegFile) (v : VoiceId) (srcMsb : Bool) (acc' : BitVec 24) : Bool := Bool.xor (acc'.getLsbD 23) (ring r v && srcMsb)

/-- NOISE is selected together with another waveform and TEST is clear: the noise write-back happens (R176). -/
def noiseWritesBack (r : RegFile) (v : VoiceId) : Bool :=
  (waveSelect r v).getLsbD 3 && !((waveSelect r v).extractLsb' 0 3 == 0#3) && !testBit r v

/-- A voice contributes the silent value: TEST set or no waveform selected (R221). -/
def voiceSilent (r : RegFile) (v : VoiceId) : Bool := testBit r v || waveSelect r v == 0#4

/-- `x` lies in the signed 32-bit range (R249). -/
def inInt32 (x : Int) : Bool := decide (-2 ^ 31 ≤ x) && decide (x ≤ 2 ^ 31 - 1)

/-- All three filter variables lie in the signed 32-bit range (R249). -/
def filterInRange (f : FilterState) : Bool := inInt32 f.vhp && inInt32 f.vbp && inInt32 f.vlp

end Sys2Proof.Machine
end

