-- ==== Sys2Proof/Machine/Tables.lean ====
section
/-! DEFINITION. The configuration record the machine runs with: the defaults the spec gives (R7, R191 to R193, R175, R222, R243, R247,
R225), the suggested counts (R6), and the opaque constants of Config.lean for every field that is OPEN. -/

namespace Sys2Proof.Machine

/-- One waveform's part of the default combination: its value if selected, else all ones (R175). -/
def selectedOrOnes (selected : Bool) (w : Wave) : Wave := if selected then w else 0xFFF#12

/-- `COMB_AND`, the default of `COMB` for both chip models (R175). -/
def combAnd (sel : BitVec 4) (tri saw pul noi : Wave) : Wave :=
  selectedOrOnes (sel.getLsbD 0) tri &&& selectedOrOnes (sel.getLsbD 1) saw &&& selectedOrOnes (sel.getLsbD 2) pul &&&
    selectedOrOnes (sel.getLsbD 3) noi

/-- The default of `INVQ` for both chip models (R243). -/
def invQDefault (res : BitVec 4) : Nat := 15360000 / (10605 + 1000 * res.toNat)

/-- `RATE_PERIOD` (R191). -/
def ratePeriod (sel : BitVec 4) : Nat :=
  match sel.toNat with
  | 0 => 9
  | 1 => 32
  | 2 => 63
  | 3 => 95
  | 4 => 149
  | 5 => 220
  | 6 => 267
  | 7 => 313
  | 8 => 392
  | 9 => 977
  | 10 => 1954
  | 11 => 3126
  | 12 => 3907
  | 13 => 11720
  | 14 => 19532
  | _ => 31251

/-- `EXP_PERIOD(L)` (R192). -/
def expPeriod (level : BitVec 8) : Nat :=
  let l := level.toNat
  if 0x5E ≤ l then 1 else if 0x37 ≤ l then 2 else if 0x1B ≤ l then 4 else if 0x0F ≤ l then 8
  else if 0x07 ≤ l then 16 else if 0x01 ≤ l then 30 else 1

/-- `SUSTAIN_LEVEL(s) = 17 * s` (R193). -/
def sustainLevel (s : BitVec 4) : BitVec 8 := BitVec.ofNat 8 (17 * s.toNat)

/-- The configuration record of this machine. -/
def tables : Config.Tables where
  ratePeriod := ratePeriod
  expPeriod := expPeriod
  sustainLevel := sustainLevel
  comb := fun _ => combAnd
  waveDac := Config.waveDac
  envDac := Config.envDac
  waveZero := fun _ => 0x800
  voiceDc := fun _ => 0
  mixerDc := fun _ => 0
  w0 := Config.w0
  invQ := fun _ => invQDefault
  dist6581 := Config.dist6581
  extIn := 0
  fir := Config.fir
  cycleBits := 64
  wqDepth := none

/-- `CYCLE_MAX = 2^(CYCLE_BITS-1) - 1` (R6). -/
def cycleMax (t : Config.Tables) : Int := 2 ^ (t.cycleBits - 1) - 1

end Sys2Proof.Machine
end

