-- ==== Sys2Proof/Machine/Ops.lean ====
section
/-! DEFINITION. The shared operations: the register file (MemRead, MemWrite, APPLY), the pending-write queue, the resets, the error
classes, the response, and taking the next command. -/

namespace Sys2Proof.Machine

/-! ### The register file -/

/-- `MASK[a]` (R23). -/
def mask (a : RegAddr) : Byte :=
  if a = 3 ∨ a = 10 ∨ a = 17 then 0x0F#8 else if a = 21 then 0x07#8 else 0xFF#8

/-- `(value mod 256) & MASK[a]`: what a write of `value` stores (R23, R120). -/
def maskedValue (a : RegAddr) (value : Int) : Byte := BitVec.ofInt 8 value &&& mask a

/-- `MemRead(a, 1)`: register `a` (R10, R106). -/
def readReg (e : Engine) (a : RegAddr) : Byte := e.reg[a]

/-- `MemWrite(a, 1, b)`: register `a` becomes `b`, every other register stays (R10, R120). -/
def writeReg (e : Engine) (a : RegAddr) (b : Byte) : Engine := { e with reg := e.reg.set a b }

/-- Voice `v` becomes `f` of itself. -/
def modifyVoice (e : Engine) (v : VoiceId) (f : Voice → Voice) : Engine :=
  { e with voices := e.voices.set v (f e.voices[v]) }

/-- `SR_RESET` (R170). -/
def srReset : BitVec 23 := 0x7FFFF8#23

/-- `GATE_EDGE(v, g_old, g_new)` on the voice (R121). -/
def gateEdge (gOld gNew : Bool) (x : Voice) : Voice :=
  if rises gOld gNew then { x with envState := .attack }
  else if falls gOld gNew then { x with envState := .release }
  else x

/-- `TEST_EDGE(v, t_old, t_new)` on the voice (R122). -/
def testEdge (tOld tNew : Bool) (x : Voice) : Voice :=
  if falls tOld tNew then { x with sr := srReset } else x

/-- The voice whose control register stands at `a` (R120). -/
def controlVoice (a : RegAddr) : Option VoiceId :=
  if a = 4 then some 0 else if a = 11 then some 1 else if a = 18 then some 2 else none

/-- `APPLY(a, value)` (R120 to R122). -/
def applyWrite (a : RegAddr) (value : Int) (e : Engine) : Engine :=
  let old := readReg e a
  let new := maskedValue a value
  let e1 := writeReg e a new
  match controlVoice a with
  | none => e1
  | some v =>
    modifyVoice e1 v fun x =>
      testEdge (old.getLsbD 3) (new.getLsbD 3) (gateEdge (old.getLsbD 0) (new.getLsbD 0) x)

/-! ### Error classes (R290 to R299) -/

/-- The status a command that raises the class returns (R86, R290): only codes 3 and 5 ever appear. -/
def errorStatus : ErrorClass → BitVec 4
  | .invalidRegisterAddress => 0
  | .nonMonotonicCycleWrite => 0
  | .invalidSamplingConfig => 3
  | .resamplerBufferUnderrun => 0
  | .reservedEncoding => 5

/-- The effect of an error class on the engine's state: the sticky flag of codes 2 and 4, nothing for the others (R290, R298). -/
def raiseFlag (c : ErrorClass) (e : Engine) : Engine :=
  match c with
  | .invalidRegisterAddress => e
  | .nonMonotonicCycleWrite => { e with diag := { e.diag with nmw := true } }
  | .invalidSamplingConfig => e
  | .resamplerBufferUnderrun => { e with diag := { e.diag with underrun := true } }
  | .reservedEncoding => e

/-- The command is over with response `r`; nothing else changes (R86). -/
def respond (s : State) (r : Response) : State := { s with response := some r }

/-- The response `(0, 0, empty)` (R86). -/
def okResponse : Response := { status := 0, data := 0, samples := [] }

/-- Taking an error of a class that ends its command without effect, codes 1, 3 and 5 (R298): no state is saved or changed, the response
is the class's status. There is no handler and no return from one (R299). -/
def takeError (c : ErrorClass) (s : State) : State := respond s { status := errorStatus c, data := 0, samples := [] }

/-- The command is over, the running engine is `e`, the response is `r`. -/
def finish (s : State) (e : Engine) (r : Response) : State := { s with inst := .running e, response := some r }

/-- A command that needs a `Running` instance (R109, R297 (e)): refused before its operands are looked at if there is none. -/
def onRunning (s : State) (k : Engine → Host.Outcome State Fault Refusal) : Host.Outcome State Fault Refusal :=
  match s.inst with
  | .unconstructed => .refused .notConstructed
  | .running e => k e

/-! ### The pending-write queue (R35, R105, R262) -/

/-- Insert after the last entry whose stamp is not above the new one's (R105). -/
def insertPending (p : PendingWrite) : List PendingWrite → List PendingWrite
  | [] => [p]
  | q :: qs => if (q :: qs).any (fun x => decide (x.stamp ≤ p.stamp)) then q :: insertPending p qs else p :: q :: qs

/-- The queue already holds `WQ_DEPTH` entries (R105 (e)). -/
def queueIsFull (t : Config.Tables) (e : Engine) : Bool :=
  match t.wqDepth with
  | none => false
  | some d => decide (d ≤ e.wq.length)

/-- The body of WRITE for an address in range (R105): clamp a past stamp and raise the flag, apply a write that is due, queue one that is
not. -/
def scheduleWrite (a : RegAddr) (value stamp : Int) (e : Engine) : Engine :=
  let e1 := if stamp < e.cyc then raiseFlag .nonMonotonicCycleWrite e else e
  let at' := if stamp < e.cyc then e.cyc else stamp
  if at' = e.cyc then applyWrite a value e1
  else { e1 with wq := insertPending { stamp := at', addr := a, value := value } e1.wq }

/-- The loop of `APPLY_DUE` over the queue `q` (R262): apply the head while its stamp is `cyc`. -/
def applyDueFrom : List PendingWrite → Engine → Engine
  | [], e => { e with wq := [] }
  | p :: ps, e => if p.stamp = e.cyc then applyDueFrom ps (applyWrite p.addr p.value e) else { e with wq := p :: ps }

/-- `APPLY_DUE(e)` (R262). -/
def applyDue (e : Engine) : Engine := applyDueFrom e.wq e

/-! ### Resets (R320 to R323) -/

/-- The voice after `POWER_ON` (R321). -/
def voicePowerOn : Voice :=
  { acc := 0, sr := srReset, snapMsb := false, snapFall := false, envState := .release, env := 0, rc := 0, ec := 0 }

/-- The resampler after `RESAMPLER_RESET` (R322): `hist[j] = 0` for every `j`. -/
def resamplerPowerOn : ResamplerState := { racc := 0, yPrev := 0, hist := [] }

/-- `RESAMPLER_RESET(e)` (R322). The kernel is a function of `samp` and is not stored (log entry 9). -/
def resamplerReset (e : Engine) : Engine := { e with resampler := resamplerPowerOn }

/-- `POWER_ON(e)` (R321): the registers are set directly, no gate or test edge. -/
def powerOn (e : Engine) : Engine :=
  resamplerReset
    { e with
      reg := Vector.replicate 25 0
      voices := Vector.replicate 3 voicePowerOn
      filter := { vhp := 0, vbp := 0, vlp := 0 }
      wq := [] }

/-- The engine NEW makes (R101, R53). -/
def construct (model : ChipModel) (samp : SamplingConfig) : Engine :=
  powerOn
    { model := model, samp := samp, cyc := 0, wq := [], diag := { nmw := false, underrun := false }, reg := Vector.replicate 25 0,
      voices := Vector.replicate 3 voicePowerOn, filter := { vhp := 0, vbp := 0, vlp := 0 }, resampler := resamplerPowerOn }

/-! ### The commands WRITE and READ, shared by their rows (R105, R106) -/

/-- WRITE(addr, value, stamp) (R105). -/
def writeCommand (t : Config.Tables) (addr value stamp : Int) (s : State) : Host.Outcome State Fault Refusal :=
  onRunning s fun e =>
    match registerAt addr with
    | none => .next (takeError .invalidRegisterAddress s)
    | some a =>
      if cycleMax t < stamp then .refused .beyondCycleMax
      else if queueIsFull t e then .refused .queueFull
      else .next (finish s (scheduleWrite a value stamp e) okResponse)

/-- READ(addr) (R106): data 0 for an address that selects nothing. -/
def readCommand (addr : Int) (s : State) : Host.Outcome State Fault Refusal :=
  onRunning s fun e =>
    match registerAt addr with
    | none => .next (takeError .invalidRegisterAddress s)
    | some a => .next (respond s { status := 0, data := readReg e a, samples := [] })

/-! ### The host's side: which command comes next -/

/-- The next command word and the state without it (R11, R100: strictly in arrival order). -/
def fetch (s : State) : Option (CmdWord × State) :=
  match s.inbox with
  | [] => none
  | w :: rest => some (w, { s with inbox := rest })

/-- The instance state in which R109 lets the host issue `i`: NEW needs an `Unconstructed` instance, a reserved word is accepted in both
states, every other command needs a `Running` one. Where there is none, the engine of R101's own example
(`NEW MOS6581, FAST, 985248, 44100`) is constructed (log entry 3). -/
def admitting (i : Instr) (x : Instance) : Instance :=
  match i with
  | .new _ _ _ _ _ => .unconstructed
  | .reserved _ => x
  | _ =>
    match x with
    | .unconstructed => .running (construct .mos6581 { method := .fast, clk := 985248, out := 44100, pass := none })
    | .running e => .running e

/-- `s` with the command word `w` as the next one the engine takes, in an instance state that admits it (log entry 3). -/
def placeCommand (s : State) (w : CmdWord) : State :=
  { s with inbox := w :: s.inbox, inst := admitting (decode w) s.inst }

end Sys2Proof.Machine
end

