-- ==== Sys2Proof/Machine/Envelope.lean ====
section
/-! DEFINITION. The envelope stage of a cycle step (R190, R194 to R199). -/

namespace Sys2Proof.Machine

/-- The period in force (R195). -/
def envPeriod (t : Config.Tables) (r : RegFile) (v : VoiceId) (st : EnvState) : Nat :=
  match st with
  | .attack => t.ratePeriod (attackRate r v)
  | .decaySustain => t.ratePeriod (decayRate r v)
  | .release => t.ratePeriod (releaseRate r v)

/-- The rate counter's next value before it is compared: 0x7FFF is followed by 1 (R194). -/
def rateCount (rc : BitVec 15) : Nat := if rc.toNat + 1 = 0x8000 then 1 else rc.toNat + 1

/-- ATTACK step, on a match (R196). -/
def attackStep (x : Voice) : Voice :=
  let level := if x.env = 0xFF then x.env else x.env + 1
  { x with ec := 0, env := level, envState := if level = 0xFF then .decaySustain else x.envState }

/-- One decrement when `due` (R198, R199): in DECAY_SUSTAIN not at the sustain level, in either state not at 0. -/
def decrement (t : Config.Tables) (r : RegFile) (v : VoiceId) (x : Voice) : BitVec 8 :=
  if x.env = 0 then x.env
  else if x.envState = .decaySustain ∧ x.env = t.sustainLevel (sustain r v) then x.env
  else x.env - 1

/-- DECAY_SUSTAIN or RELEASE step, on a match (R197, R198, R199). -/
def decayStep (t : Config.Tables) (r : RegFile) (v : VoiceId) (x : Voice) : Voice :=
  if x.ec + 1 < t.expPeriod x.env then { x with ec := x.ec + 1 }
  else { x with ec := 0, env := decrement t r v x }

/-- The envelope stage for one voice (R190, R194). -/
def envelopeVoice (t : Config.Tables) (r : RegFile) (v : VoiceId) (x : Voice) : Voice :=
  let c := rateCount x.rc
  if c = envPeriod t r v x.envState then
    let y := { x with rc := 0 }
    match x.envState with
    | .attack => attackStep y
    | .decaySustain => decayStep t r v y
    | .release => decayStep t r v y
  else { x with rc := BitVec.ofNat 15 c }

/-- The engine after the envelope stage (R190). -/
def envelopes (t : Config.Tables) (e : Engine) : Engine :=
  { e with voices := Vector.ofFn fun v => envelopeVoice t e.reg v e.voices[v] }

end Sys2Proof.Machine
end

