-- ==== Sys2Proof/Machine/Filter.lean ====
section
/-! DEFINITION. The filter stage of a cycle step, the volume and the cycle sample (R240 to R248). -/

namespace Sys2Proof.Machine

/-- The state update of R244, with the coefficients `w0` and `q`: both deltas from the old state, then `Vbp`, `Vlp`, then `Vhp`. -/
def filterUpdate (w0 q vi : Int) (f : FilterState) : FilterState :=
  let vbp := f.vbp - shiftDown (w0 * f.vhp) 20
  let vlp := f.vlp - shiftDown (w0 * f.vbp) 20
  { vbp := vbp, vlp := vlp, vhp := shiftDown (vbp * q) 10 - vlp - vi }

/-- The filter's new state (R242, R243, R244). -/
def filterStep (t : Config.Tables) (e : Engine) (vi : Int) : FilterState :=
  filterUpdate (t.w0 e.model (cutoff e.reg)) (t.invQ e.model (resonance e.reg)) vi e.filter

/-- `Vf`, the sum of the selected taps (R245). -/
def tapSum (r : RegFile) (f : FilterState) : Int :=
  (if lowPass r then f.vlp else 0) + (if bandPass r then f.vbp else 0) + (if highPass r then f.vhp else 0)

/-- `Vd = DIST(model, Vf)` (R246). -/
def distort (t : Config.Tables) (model : ChipModel) (x : Int) : Int :=
  match model with
  | .mos6581 => t.dist6581 x
  | .mos8580 => x

/-- `y = clamp16((Vo * vol) div OUT_DIV)` (R248). -/
def outputLevel (vo : Int) (vol : BitVec 4) : Int := clamp16 (floorDiv (vo * (vol.toNat : Int)) Config.outDiv)

/-- The cycle sample, from the filter state after R244 and the direct path (R245 to R248). -/
def cycleSample (t : Config.Tables) (e : Engine) (f : FilterState) (vnf : Int) : Sample :=
  toSample (outputLevel (vnf + distort t e.model (tapSum e.reg f) + t.mixerDc e.model) (volume e.reg))

end Sys2Proof.Machine
end

