-- ==== Sys2Proof/Machine/Mixer.lean ====
section
/-! DEFINITION. The mixer stage of a cycle step (R220 to R225). -/

namespace Sys2Proof.Machine

/-- `vo[v]` of a voice with waveform value `w` and level `env` (R221, R222). -/
def voiceOutput (t : Config.Tables) (model : ChipModel) (r : RegFile) (v : VoiceId) (w : Wave) (env : BitVec 8) : Int :=
  if voiceSilent r v then shiftDown (t.voiceDc model) 7
  else shiftDown ((((t.waveDac model w).toNat : Int) - t.waveZero model) * ((t.envDac model env).toNat : Int) + t.voiceDc model) 7

/-- The part of `vo[v]` that goes to the filter (R223). -/
def filteredPart (r : RegFile) (v : VoiceId) (vo : Int) : Int := if filt r v then vo else 0

/-- The part of `vo[v]` that goes to the output directly; voice 3 is left out when `v3off` is set (R224). -/
def directPart (r : RegFile) (v : VoiceId) (vo : Int) : Int :=
  if filt r v then 0 else if v = 2 ∧ voice3Off r = true then 0 else vo

/-- `(Vi, Vnf)` of the cycle step, from the waveform values and the levels after the envelope stage (R220, R223 to R225). -/
def mixer (t : Config.Tables) (e : Engine) (w : VoiceId → Wave) : Int × Int :=
  let vo := fun v : VoiceId => voiceOutput t e.model e.reg v (w v) e.voices[v].env
  (filteredPart e.reg 0 (vo 0) + filteredPart e.reg 1 (vo 1) + filteredPart e.reg 2 (vo 2) + (if filtex e.reg then t.extIn else 0),
   directPart e.reg 0 (vo 0) + directPart e.reg 1 (vo 1) + directPart e.reg 2 (vo 2) + (if filtex e.reg then 0 else t.extIn))

end Sys2Proof.Machine
end

