-- ==== Sys2Proof/Machine/Oscillator.lean ====
section
/-! DEFINITION. The oscillator stage of a cycle step (R160 to R176). -/

namespace Sys2Proof.Machine

/-- `src(v) = (v + 2) mod 3` (R163). -/
def sourceVoice (v : VoiceId) : VoiceId := v + 2

/-- The accumulator update (R161, R162, R165). -/
def nextAcc (r : RegFile) (v : VoiceId) (srcFall : Bool) (acc : BitVec 24) : BitVec 24 :=
  if testBit r v then 0 else if syncResets r v srcFall then 0 else acc + (freq r v).setWidth 24

/-- One shift of the noise register (R171). -/
def shiftNoise (sr : BitVec 23) : BitVec 23 :=
  sr <<< 1 ||| (BitVec.ofBool (Bool.xor (sr.getLsbD 22) (sr.getLsbD 17))).setWidth 23

/-- The pairs (output bit, shift-register bit) of R172 and R176. -/
def noiseTaps : List (Nat × Nat) := [(11, 22), (10, 20), (9, 16), (8, 13), (7, 11), (6, 7), (5, 4), (4, 2)]

/-- `noi`: the noise output (R172). -/
def noiseOutput (sr : BitVec 23) : Wave :=
  noiseTaps.foldl (fun w (p : Nat × Nat) => if sr.getLsbD p.2 then w ||| BitVec.twoPow 12 p.1 else w) 0

/-- The noise write-back (R176): each tap bit is ANDed with the output bit it feeds. -/
def writeBackNoise (w : Wave) (sr : BitVec 23) : BitVec 23 :=
  noiseTaps.foldl (fun x (p : Nat × Nat) => if w.getLsbD p.1 then x else x &&& ~~~BitVec.twoPow 23 p.2) sr

/-- `saw(v)` (R167). -/
def sawtooth (acc' : BitVec 24) : Wave := acc'.extractLsb' 12 12

/-- `tri(v)` (R168): bits 22:11 of the accumulator, complemented when the fold bit is 1. -/
def triangle (r : RegFile) (v : VoiceId) (srcMsb : Bool) (acc' : BitVec 24) : Wave :=
  if foldBit r v srcMsb acc' then ((acc' ^^^ 0xFFFFFF#24) >>> 11).setWidth 12 else (acc' >>> 11).setWidth 12

/-- `pul(v)` (R169). -/
def pulse (r : RegFile) (v : VoiceId) (acc' : BitVec 24) : Wave :=
  if (pulseWidth r v).toNat ≤ (acc'.extractLsb' 12 12).toNat then 0xFFF#12 else 0

/-- `W[v]` (R173, R174, R175). -/
def waveform (t : Config.Tables) (model : ChipModel) (sel : BitVec 4) (tri saw pul noi : Wave) : Wave :=
  match sel.toNat with
  | 0 => 0
  | 1 => tri
  | 2 => saw
  | 4 => pul
  | 8 => noi
  | _ => t.comb model sel tri saw pul noi

/-- The oscillator stage for voice `v`: the voice after it, new snapshot bits included, and `W[v]`. It reads the engine as it stood before
the stage, so the snapshots it reads are the old ones whatever the order of the voices (R160, R164). -/
def oscillateVoice (t : Config.Tables) (e : Engine) (v : VoiceId) : Voice × Wave :=
  let x := e.voices[v]
  let src := e.voices[sourceVoice v]
  let acc' := nextAcc e.reg v src.snapFall x.acc
  let sr1 := if noiseClocks (testBit e.reg v) x.acc acc' then shiftNoise x.sr else x.sr
  let w := waveform t e.model (waveSelect e.reg v) (triangle e.reg v src.snapMsb acc') (sawtooth acc') (pulse e.reg v acc')
    (noiseOutput sr1)
  let sr2 := if noiseWritesBack e.reg v then writeBackNoise w sr1 else sr1
  ({ x with acc := acc', sr := sr2, snapMsb := acc'.getLsbD 23, snapFall := topBitFalls x.acc acc' }, w)

/-- `W[0..2]` of the cycle step (R160). -/
def waveforms (t : Config.Tables) (e : Engine) (v : VoiceId) : Wave := (oscillateVoice t e v).2

/-- The engine after the oscillator stage (R160). -/
def oscillators (t : Config.Tables) (e : Engine) : Engine :=
  { e with voices := Vector.ofFn fun v => (oscillateVoice t e v).1 }

end Sys2Proof.Machine
end

