-- ==== Sys2Proof/Machine/Resampler.lean ====
section
/-! DEFINITION. The resampler stage of a cycle step (R263 to R272). -/

namespace Sys2Proof.Machine

/-- Drop the zeros at the end: the canonical form of a history (log entry 10). -/
def trimZeros : List Sample → List Sample
  | [] => []
  | y :: ys =>
    match trimZeros ys with
    | [] => if y = 0 then [] else [y]
    | z :: zs => y :: z :: zs

/-- `hist[j]`: the cycle sample `j` steps back; 0 where nothing is listed (R47). -/
def histAt (h : List Sample) (j : Nat) : Sample := h.getD j 0

/-- The new cycle sample enters the history and the oldest leaves it (R263). -/
def pushHistory (y : Sample) (h : List Sample) : List Sample := trimZeros ((y :: h).take Config.ringSize)

/-- `H(j)`, the guarded history read, and whether it was an underrun (R271). -/
def guardedRead (h : List Sample) (j : Nat) : Int × Bool :=
  if j < Config.ringSize then ((histAt h j).toInt, false) else (0, true)

/-- The sum over `j < n` of `K[p][j] * H(j + d)`, and whether a read was an underrun (R269, R271). -/
def convolve (k : Nat → Int) (h : List Sample) (d : Nat) : Nat → Int × Bool
  | 0 => (0, false)
  | n + 1 =>
    let acc := convolve k h d n
    let x := guardedRead h (n + d)
    (acc.1 + k n * x.1, acc.2 || x.2)

/-- FAST (R265). -/
def fastSample (out r : Nat) (yPrev y : Sample) : Sample := if 2 * r ≤ out then y else yPrev

/-- INTERPOLATE (R266). -/
def interpolated (out r : Nat) (yPrev y : Int) : Int := yPrev + floorDiv ((y - yPrev) * ((out : Int) - (r : Int))) out

/-- The row `p` of the kernel phase (R267). -/
def phaseRow (k : Config.Kernel) (out r : Nat) : Nat := r * k.phases / out

/-- The remainder `fr` of the kernel phase (R267). -/
def phaseRest (k : Config.Kernel) (out r : Nat) : Nat := r * k.phases % out

/-- RESAMPLE_FASTMEM (R270): one convolution. -/
def fastmemSample (k : Config.Kernel) (h : List Sample) (out r : Nat) : Sample × Bool :=
  let v1 := convolve (k.weight (phaseRow k out r)) h 0 k.taps
  (toSample (clamp16 (shiftDown v1.1 k.shift)), v1.2)

/-- RESAMPLE (R269): two convolutions and the interpolation between them; after the last row comes row 0 one cycle earlier. -/
def resampleSample (k : Config.Kernel) (h : List Sample) (out r : Nat) : Sample × Bool :=
  let p := phaseRow k out r
  let v1 := convolve (k.weight p) h 0 k.taps
  let v2 := if p + 1 < k.phases then convolve (k.weight (p + 1)) h 0 k.taps else convolve (k.weight 0) h 1 k.taps
  let v := v1.1 + floorDiv ((v2.1 - v1.1) * (phaseRest k out r : Int)) out
  (toSample (clamp16 (shiftDown v k.shift)), v1.2 || v2.2)

/-- `SAMPLE(method, r)` and whether it read beyond the history (R264 to R271); `h` already holds `y`. -/
def sampleAt (t : Config.Tables) (c : SamplingConfig) (h : List Sample) (yPrev y : Sample) (r : Nat) : Sample × Bool :=
  match c.method with
  | .fast => (fastSample c.out r yPrev y, false)
  | .interpolate => (toSample (interpolated c.out r yPrev.toInt y.toInt), false)
  | .resample => resampleSample (t.fir c.method c.clk c.out c.pass) h c.out r
  | .resampleFastmem => fastmemSample (t.fir c.method c.clk c.out c.pass) h c.out r

/-- The emission loop of R264: while `racc >= clk`, subtract `clk` and emit. `n` bounds the number of turns. Answers the accumulator left,
the samples in order, and whether a read was an underrun. -/
def emitLoop (sample : Nat → Sample × Bool) (clk : Nat) : Nat → Nat → Nat × List Sample × Bool
  | 0, racc => (racc, [], false)
  | n + 1, racc =>
    if clk ≤ racc then
      let x := sample (racc - clk)
      let rest := emitLoop sample clk n (racc - clk)
      (rest.1, x.1 :: rest.2.1, x.2 || rest.2.2)
    else (racc, [], false)

/-- `RESAMPLE_STEP(e, y)` (R263 to R272). The loop turns exactly `(racc + out) div clk` times (R273). -/
def resampleStep (t : Config.Tables) (e : Engine) (y : Sample) : Engine × List Sample :=
  let h := pushHistory y e.resampler.hist
  let racc := e.resampler.racc + e.samp.out
  let res := emitLoop (sampleAt t e.samp h e.resampler.yPrev y) e.samp.clk (racc / e.samp.clk) racc
  let e1 := { e with resampler := { racc := res.1, yPrev := y, hist := h } }
  (if res.2.2 then raiseFlag .resamplerBufferUnderrun e1 else e1, res.2.1)

end Sys2Proof.Machine
end

