-- ==== Sys2Proof/Machine/Cycle.lean ====
section
/-! DEFINITION. The cycle step `CYCLE` (R260, R261) and the command that repeats it (R107). -/

namespace Sys2Proof.Machine

/-- Stages 1 and 2: the engine after the oscillators and the envelopes (R261). -/
def voiceStages (t : Config.Tables) (e : Engine) : Engine := envelopes t (oscillators t e)

/-- Stage 3: `(Vi, Vnf)` of the cycle step that starts at `e` (R261). -/
def mixed (t : Config.Tables) (e : Engine) : Int × Int := mixer t (voiceStages t e) (waveforms t e)

/-- Stage 4: the filter state of the cycle step that starts at `e` (R261, R244). -/
def filtered (t : Config.Tables) (e : Engine) : FilterState := filterStep t (voiceStages t e) (mixed t e).1

/-- Stages 1 to 4: the engine after the filter, and the cycle sample (R261). -/
def pipeline (t : Config.Tables) (e : Engine) : Engine × Sample :=
  ({ voiceStages t e with filter := filtered t e }, cycleSample t (voiceStages t e) (filtered t e) (mixed t e).2)

/-- `CYCLE(e)` (R261): the pipeline, the resampler, the counter, the writes that fall due. The fault is R249's. -/
def cycle (t : Config.Tables) (e : Engine) : Except Fault (Engine × List Sample) :=
  if filterInRange (filtered t e) then
    let p := pipeline t e
    let r := resampleStep t p.1 p.2
    .ok (applyDue { r.1 with cyc := r.1.cyc + 1 }, r.2)
  else .error .filterOverflow

/-- `n` cycle steps and the concatenation of their samples, in cycle order (R107). -/
def runCycles (t : Config.Tables) : Nat → Engine → Except Fault (Engine × List Sample)
  | 0, e => .ok (e, [])
  | n + 1, e =>
    match cycle t e with
    | .error f => .error f
    | .ok (e1, ss1) =>
      match runCycles t n e1 with
      | .error f => .error f
      | .ok (e2, ss2) => .ok (e2, ss1 ++ ss2)

/-- CLOCK(n) (R107, R304); a negative `n` is treated as 0. -/
def clockCommand (t : Config.Tables) (n : Int) (s : State) : Host.Outcome State Fault Refusal :=
  onRunning s fun e =>
    if cycleMax t < e.cyc + max n 0 then .refused .beyondCycleMax
    else
      match runCycles t n.toNat e with
      | .error f => .fault f
      | .ok (e1, ss) => .next (finish s e1 { status := 0, data := 0, samples := ss })

end Sys2Proof.Machine
end

