-- ==== Sys2Proof/Machine/HostCommands.lean ====
section
/-! DEFINITION. The meanings of NEW, SETSAMPLING, RESET, READ, CLOCK and RESERVED (R101 to R108). -/

namespace Sys2Proof.Machine

/-- NEW (R101, R102, R109). -/
def execNew (model : BitVec 2) (method : BitVec 3) (clk out : Int) (pass : Option Int) (s : State) :
    Host.Outcome State Fault Refusal :=
  match s.inst with
  | .running _ => .refused .alreadyConstructed
  | .unconstructed =>
    match modelOfCode model, validSampling method clk out pass with
    | some m, some c => .next (finish s (construct m c) okResponse)
    | _, _ => .next (takeError .invalidSamplingConfig s)

/-- SETSAMPLING (R103). -/
def execSetSampling (method : BitVec 3) (clk out : Int) (pass : Option Int) (s : State) : Host.Outcome State Fault Refusal :=
  onRunning s fun e =>
    match validSampling method clk out pass with
    | none => .next (takeError .invalidSamplingConfig s)
    | some c => .next (finish s (resamplerReset { e with samp := c }) okResponse)

/-- RESET (R104). -/
def execReset (s : State) : Host.Outcome State Fault Refusal :=
  onRunning s fun e => .next (finish s (powerOn e) okResponse)

/-- READ of an address in range (R106). -/
def execRead (addr : Int) (s : State) : Host.Outcome State Fault Refusal := readCommand addr s

/-- READ.OUT_OF_RANGE (R106). -/
def execReadOutOfRange (addr : Int) (s : State) : Host.Outcome State Fault Refusal := readCommand addr s

/-- CLOCK (R107). -/
def execClock (n : Int) (s : State) : Host.Outcome State Fault Refusal := clockCommand tables n s

/-- RESERVED (R108): accepted in both instance states; the word itself does not matter. -/
def execReserved (_w : CmdWord) (s : State) : Host.Outcome State Fault Refusal := .next (takeError .reservedEncoding s)

end Sys2Proof.Machine
end

