-- ==== Sys2Proof/Machine/RegisterWrites.lean ====
section
/-! DEFINITION. The meanings of the 25 register forms of WRITE and of WRITE.OUT_OF_RANGE (R123 to R148): WRITE at the form's address. -/

namespace Sys2Proof.Machine

/-- WRITE.FREQ_LO_1 (R123). -/
def execWriteFreqLo1 (value stamp : Int) (s : State) : Host.Outcome State Fault Refusal :=
  writeCommand tables 0 value stamp s

/-- WRITE.FREQ_HI_1 (R124). -/
def execWriteFreqHi1 (value stamp : Int) (s : State) : Host.Outcome State Fault Refusal :=
  writeCommand tables 1 value stamp s

/-- WRITE.PW_LO_1 (R125). -/
def execWritePwLo1 (value stamp : Int) (s : State) : Host.Outcome State Fault Refusal :=
  writeCommand tables 2 value stamp s

/-- WRITE.PW_HI_1 (R126). -/
def execWritePwHi1 (value stamp : Int) (s : State) : Host.Outcome State Fault Refusal :=
  writeCommand tables 3 value stamp s

/-- WRITE.CONTROL_1 (R127). -/
def execWriteControl1 (value stamp : Int) (s : State) : Host.Outcome State Fault Refusal :=
  writeCommand tables 4 value stamp s

/-- WRITE.ATTACK_DECAY_1 (R128). -/
def execWriteAttackDecay1 (value stamp : Int) (s : State) : Host.Outcome State Fault Refusal :=
  writeCommand tables 5 value stamp s

/-- WRITE.SUSTAIN_RELEASE_1 (R129). -/
def execWriteSustainRelease1 (value stamp : Int) (s : State) : Host.Outcome State Fault Refusal :=
  writeCommand tables 6 value stamp s

/-- WRITE.FREQ_LO_2 (R130). -/
def execWriteFreqLo2 (value stamp : Int) (s : State) : Host.Outcome State Fault Refusal :=
  writeCommand tables 7 value stamp s

/-- WRITE.FREQ_HI_2 (R131). -/
def execWriteFreqHi2 (value stamp : Int) (s : State) : Host.Outcome State Fault Refusal :=
  writeCommand tables 8 value stamp s

/-- WRITE.PW_LO_2 (R132). -/
def execWritePwLo2 (value stamp : Int) (s : State) : Host.Outcome State Fault Refusal :=
  writeCommand tables 9 value stamp s

/-- WRITE.PW_HI_2 (R133). -/
def execWritePwHi2 (value stamp : Int) (s : State) : Host.Outcome State Fault Refusal :=
  writeCommand tables 10 value stamp s

/-- WRITE.CONTROL_2 (R134). -/
def execWriteControl2 (value stamp : Int) (s : State) : Host.Outcome State Fault Refusal :=
  writeCommand tables 11 value stamp s

/-- WRITE.ATTACK_DECAY_2 (R135). -/
def execWriteAttackDecay2 (value stamp : Int) (s : State) : Host.Outcome State Fault Refusal :=
  writeCommand tables 12 value stamp s

/-- WRITE.SUSTAIN_RELEASE_2 (R136). -/
def execWriteSustainRelease2 (value stamp : Int) (s : State) : Host.Outcome State Fault Refusal :=
  writeCommand tables 13 value stamp s

/-- WRITE.FREQ_LO_3 (R137). -/
def execWriteFreqLo3 (value stamp : Int) (s : State) : Host.Outcome State Fault Refusal :=
  writeCommand tables 14 value stamp s

/-- WRITE.FREQ_HI_3 (R138). -/
def execWriteFreqHi3 (value stamp : Int) (s : State) : Host.Outcome State Fault Refusal :=
  writeCommand tables 15 value stamp s

/-- WRITE.PW_LO_3 (R139). -/
def execWritePwLo3 (value stamp : Int) (s : State) : Host.Outcome State Fault Refusal :=
  writeCommand tables 16 value stamp s

/-- WRITE.PW_HI_3 (R140). -/
def execWritePwHi3 (value stamp : Int) (s : State) : Host.Outcome State Fault Refusal :=
  writeCommand tables 17 value stamp s

/-- WRITE.CONTROL_3 (R141). -/
def execWriteControl3 (value stamp : Int) (s : State) : Host.Outcome State Fault Refusal :=
  writeCommand tables 18 value stamp s

/-- WRITE.ATTACK_DECAY_3 (R142). -/
def execWriteAttackDecay3 (value stamp : Int) (s : State) : Host.Outcome State Fault Refusal :=
  writeCommand tables 19 value stamp s

/-- WRITE.SUSTAIN_RELEASE_3 (R143). -/
def execWriteSustainRelease3 (value stamp : Int) (s : State) : Host.Outcome State Fault Refusal :=
  writeCommand tables 20 value stamp s

/-- WRITE.FC_LO (R144). -/
def execWriteFcLo (value stamp : Int) (s : State) : Host.Outcome State Fault Refusal :=
  writeCommand tables 21 value stamp s

/-- WRITE.FC_HI (R145). -/
def execWriteFcHi (value stamp : Int) (s : State) : Host.Outcome State Fault Refusal :=
  writeCommand tables 22 value stamp s

/-- WRITE.RES_FILT (R146). -/
def execWriteResFilt (value stamp : Int) (s : State) : Host.Outcome State Fault Refusal :=
  writeCommand tables 23 value stamp s

/-- WRITE.MODE_VOL (R147). -/
def execWriteModeVol (value stamp : Int) (s : State) : Host.Outcome State Fault Refusal :=
  writeCommand tables 24 value stamp s

/-- WRITE.OUT_OF_RANGE (R148). -/
def execWriteOutOfRange (addr value stamp : Int) (s : State) : Host.Outcome State Fault Refusal :=
  writeCommand tables addr value stamp s

end Sys2Proof.Machine
end

