-- ==== Sys2Proof/Machine/Dispatch.lean ====
section
/-! DEFINITION. One arm per instruction. -/

namespace Sys2Proof.Machine

/-- The meaning of an instruction. -/
def exec (i : Instr) (s : State) : Host.Outcome State Fault Refusal :=
  match i with
  | .new model method clk out pass => Sys2Proof.Machine.execNew model method clk out pass s
  | .setSampling method clk out pass => Sys2Proof.Machine.execSetSampling method clk out pass s
  | .reset => Sys2Proof.Machine.execReset s
  | .writeFreqLo1 value stamp => Sys2Proof.Machine.execWriteFreqLo1 value stamp s
  | .writeFreqHi1 value stamp => Sys2Proof.Machine.execWriteFreqHi1 value stamp s
  | .writePwLo1 value stamp => Sys2Proof.Machine.execWritePwLo1 value stamp s
  | .writePwHi1 value stamp => Sys2Proof.Machine.execWritePwHi1 value stamp s
  | .writeControl1 value stamp => Sys2Proof.Machine.execWriteControl1 value stamp s
  | .writeAttackDecay1 value stamp => Sys2Proof.Machine.execWriteAttackDecay1 value stamp s
  | .writeSustainRelease1 value stamp => Sys2Proof.Machine.execWriteSustainRelease1 value stamp s
  | .writeFreqLo2 value stamp => Sys2Proof.Machine.execWriteFreqLo2 value stamp s
  | .writeFreqHi2 value stamp => Sys2Proof.Machine.execWriteFreqHi2 value stamp s
  | .writePwLo2 value stamp => Sys2Proof.Machine.execWritePwLo2 value stamp s
  | .writePwHi2 value stamp => Sys2Proof.Machine.execWritePwHi2 value stamp s
  | .writeControl2 value stamp => Sys2Proof.Machine.execWriteControl2 value stamp s
  | .writeAttackDecay2 value stamp => Sys2Proof.Machine.execWriteAttackDecay2 value stamp s
  | .writeSustainRelease2 value stamp => Sys2Proof.Machine.execWriteSustainRelease2 value stamp s
  | .writeFreqLo3 value stamp => Sys2Proof.Machine.execWriteFreqLo3 value stamp s
  | .writeFreqHi3 value stamp => Sys2Proof.Machine.execWriteFreqHi3 value stamp s
  | .writePwLo3 value stamp => Sys2Proof.Machine.execWritePwLo3 value stamp s
  | .writePwHi3 value stamp => Sys2Proof.Machine.execWritePwHi3 value stamp s
  | .writeControl3 value stamp => Sys2Proof.Machine.execWriteControl3 value stamp s
  | .writeAttackDecay3 value stamp => Sys2Proof.Machine.execWriteAttackDecay3 value stamp s
  | .writeSustainRelease3 value stamp => Sys2Proof.Machine.execWriteSustainRelease3 value stamp s
  | .writeFcLo value stamp => Sys2Proof.Machine.execWriteFcLo value stamp s
  | .writeFcHi value stamp => Sys2Proof.Machine.execWriteFcHi value stamp s
  | .writeResFilt value stamp => Sys2Proof.Machine.execWriteResFilt value stamp s
  | .writeModeVol value stamp => Sys2Proof.Machine.execWriteModeVol value stamp s
  | .writeOutOfRange addr value stamp => Sys2Proof.Machine.execWriteOutOfRange addr value stamp s
  | .read addr => Sys2Proof.Machine.execRead addr s
  | .readOutOfRange addr => Sys2Proof.Machine.execReadOutOfRange addr s
  | .clock n => Sys2Proof.Machine.execClock n s
  | .reserved w => Sys2Proof.Machine.execReserved w s

end Sys2Proof.Machine
end

