-- ==== Sys2Proof/Machine/Step.lean ====
section
/-! DEFINITION. One step: the engine takes the host's next command word and executes it (R11, R100). -/

namespace Sys2Proof.Machine

/-- One command, from its word to its completion; with no command issued nothing acts (log entry 1). -/
def step (s : State) : Host.Outcome State Fault Refusal :=
  match fetch s with
  | none => .refused .awaitingCommand
  | some (w, s1) => exec (decode w) s1

/-- `s` with the table's instruction of bits `w` as the next command, in an instance state that admits it (log entry 3). -/
def State.withFetchWord (s : State) (nbits w : Nat) : State := placeCommand s (tableWord nbits w)

end Sys2Proof.Machine
end

