-- ==== Sys2Proof/Machine/PseudoCommands.lean ====
section
/-! DEFINITION. The pseudo-commands of R93: each stands for two WRITEs with one stamp, the low part first. -/

namespace Sys2Proof.Machine

/-- `WRFREQ v, x @stamp` (R93). -/
def wrFreq (v : VoiceId) (x : BitVec 16) (stamp : Int) : List Instr :=
  [writeRow (7 * v.val) (x &&& 0xFF#16).toNat stamp, writeRow (7 * v.val + 1) (x >>> 8).toNat stamp]

/-- `WRPW v, x @stamp` (R93). -/
def wrPw (v : VoiceId) (x : BitVec 12) (stamp : Int) : List Instr :=
  [writeRow (7 * v.val + 2) (x &&& 0xFF#12).toNat stamp, writeRow (7 * v.val + 3) (x >>> 8).toNat stamp]

/-- `WRFC x @stamp` (R93). -/
def wrFc (x : BitVec 11) (stamp : Int) : List Instr :=
  [writeRow 21 (x &&& 7#11).toNat stamp, writeRow 22 (x >>> 3).toNat stamp]

end Sys2Proof.Machine
end

