-- ==== Sys2Proof/Machine/Configured.lean ====
section
/-! DEFINITION. The machine for every configuration record: `exec` and `step` with the record as their argument, as R7 and R11 have it. The
machine of Dispatch.lean and Step.lean is the one for the record `tables` (`execUnder_tables`, `stepUnder_tables`). -/

namespace Sys2Proof.Machine

/-- `exec : Tables -> Instance -> Command -> Instance x Response` of R11: the meaning of an instruction under the record `t`.
The register forms of WRITE consult its two counts and CLOCK the rest; NEW, SETSAMPLING, RESET, READ and RESERVED do not consult it. -/
def execUnder (t : Config.Tables) (i : Instr) (s : State) : Host.Outcome State Fault Refusal :=
  match i with
  | .new model method clk out pass => execNew model method clk out pass s
  | .setSampling method clk out pass => execSetSampling method clk out pass s
  | .reset => execReset s
  | .writeFreqLo1 value stamp => writeCommand t 0 value stamp s
  | .writeFreqHi1 value stamp => writeCommand t 1 value stamp s
  | .writePwLo1 value stamp => writeCommand t 2 value stamp s
  | .writePwHi1 value stamp => writeCommand t 3 value stamp s
  | .writeControl1 value stamp => writeCommand t 4 value stamp s
  | .writeAttackDecay1 value stamp => writeCommand t 5 value stamp s
  | .writeSustainRelease1 value stamp => writeCommand t 6 value stamp s
  | .writeFreqLo2 value stamp => writeCommand t 7 value stamp s
  | .writeFreqHi2 value stamp => writeCommand t 8 value stamp s
  | .writePwLo2 value stamp => writeCommand t 9 value stamp s
  | .writePwHi2 value stamp => writeCommand t 10 value stamp s
  | .writeControl2 value stamp => writeCommand t 11 value stamp s
  | .writeAttackDecay2 value stamp => writeCommand t 12 value stamp s
  | .writeSustainRelease2 value stamp => writeCommand t 13 value stamp s
  | .writeFreqLo3 value stamp => writeCommand t 14 value stamp s
  | .writeFreqHi3 value stamp => writeCommand t 15 value stamp s
  | .writePwLo3 value stamp => writeCommand t 16 value stamp s
  | .writePwHi3 value stamp => writeCommand t 17 value stamp s
  | .writeControl3 value stamp => writeCommand t 18 value stamp s
  | .writeAttackDecay3 value stamp => writeCommand t 19 value stamp s
  | .writeSustainRelease3 value stamp => writeCommand t 20 value stamp s
  | .writeFcLo value stamp => writeCommand t 21 value stamp s
  | .writeFcHi value stamp => writeCommand t 22 value stamp s
  | .writeResFilt value stamp => writeCommand t 23 value stamp s
  | .writeModeVol value stamp => writeCommand t 24 value stamp s
  | .writeOutOfRange addr value stamp => writeCommand t addr value stamp s
  | .read addr => execRead addr s
  | .readOutOfRange addr => execReadOutOfRange addr s
  | .clock n => clockCommand t n s
  | .reserved w => execReserved w s

/-- One step under the record `t` (R11, R100). -/
def stepUnder (t : Config.Tables) (s : State) : Host.Outcome State Fault Refusal :=
  match fetch s with
  | none => .refused .awaitingCommand
  | some (w, s1) => execUnder t (decode w) s1

end Sys2Proof.Machine
end

