-- ==== Sys2Proof/Safety.lean ====
section
/-! DEFINITION. What holds of every state a run reaches, as the rules state it: the invariants of R23, R34 to R36, R39, R43 to R45, R47,
R200 and R201. -/

namespace Sys2Proof.Machine

/-- The bits of a register that are not implemented read 0 (R23). -/
abbrev regsMasked (r : RegFile) : Prop := ∀ a : RegAddr, r[a] &&& mask a = r[a]

/-- The pending-write queue: every stamp is above `cyc`, none is above CYCLE_MAX, and the list is sorted by stamp (R35 (a), (b), R304). -/
abbrev queueOrdered (t : Config.Tables) (e : Engine) : Prop :=
  (∀ p ∈ e.wq, e.cyc < p.stamp ∧ p.stamp ≤ cycleMax t) ∧ e.wq.Pairwise (fun p q => p.stamp ≤ q.stamp)

/-- The cycle counter is between 0 and CYCLE_MAX (R34, R304). -/
abbrev cycInRange (t : Config.Tables) (e : Engine) : Prop := 0 ≤ e.cyc ∧ e.cyc ≤ cycleMax t

/-- The snapshot bits are those of the accumulator as the last cycle step left it (R39). -/
abbrev snapshotCurrent (x : Voice) : Prop := x.snapMsb = x.acc.getLsbD 23 ∧ (x.snapFall = true → x.acc.getLsbD 23 = false)

/-- The exponential counter is at most 29, and the stage is RELEASE exactly while the gate bit is 0 (R43, R200, R201). -/
abbrev envelopeLegal (r : RegFile) (v : VoiceId) (x : Voice) : Prop :=
  x.ec ≤ 29 ∧ (x.envState = .release ↔ gate r v = false)

/-- The rates are positive and the accumulator of output instants is below the input rate (R36, R45). -/
abbrev samplingLegal (e : Engine) : Prop := 0 < e.samp.clk ∧ 0 < e.samp.out ∧ e.resampler.racc < e.samp.clk

/-- The canonical form of a history: at most RINGSIZE samples listed and no 0 at the end (R47, log entry 10). -/
abbrev histCanonical (h : List Sample) : Prop := h.length ≤ Config.ringSize ∧ h.getLast? ≠ some 0

/-- The invariant of a running engine under the record `t`. -/
abbrev Engine.InvUnder (t : Config.Tables) (e : Engine) : Prop :=
  cycInRange t e ∧ queueOrdered t e ∧ regsMasked e.reg ∧ (∀ v : VoiceId, snapshotCurrent e.voices[v]) ∧
    (∀ v : VoiceId, envelopeLegal e.reg v e.voices[v]) ∧ filterInRange e.filter = true ∧ samplingLegal e ∧
    histCanonical e.resampler.hist

/-- The invariant of an instance: an `Unconstructed` one has no engine to speak of (R20). -/
def Instance.InvUnder (t : Config.Tables) : Instance → Prop
  | .unconstructed => True
  | .running e => e.InvUnder t

/-- The invariant of the machine under the record `t`. -/
def State.InvUnder (t : Config.Tables) (s : State) : Prop := s.inst.InvUnder t

/-- The invariant of the machine. -/
def State.Inv (s : State) : Prop := s.InvUnder tables

/-- The step from `s` does not end in the fault `FilterOverflow` (R249). -/
def State.SafeStep (s : State) : Prop := ∀ f, step s ≠ .fault f

end Sys2Proof.Machine
end

