-- ==== Sys2Proof/Certificates/Slice0/Obligations.lean ====
section
/-! DEFINITION. The statements for the provers. Numbers, tables and bit positions are written out from the rules, so that a statement does
not merely repeat the definition it is about. The bound 9223372036854775807 of several premises is `CYCLE_MAX` at the spec's suggested
`CYCLE_BITS = 64`, which the model chose (log entry 7). That a WRITE to a register never meets a full queue in `exec` and `step` is the
model's choice of the suggested unbounded `WQ_DEPTH` (log entry 8). -/

open Sys2Proof Sys2Proof.Machine

/-! ### The command word -/

/-- Decoding the word of a well-formed instruction gives it back: no operand bit is lost (R82, R85). -/
def Obligations.DecodeInvertsEncode : Prop :=
  ∀ i : Instr, i.wf = true → decode (encode i) = i

/-- Every word decodes to a well-formed instruction whose word it is: the decoder is total and invents nothing (R89). -/
def Obligations.EncodeInvertsDecode : Prop :=
  ∀ w : CmdWord, (decode w).wf = true ∧ encode (decode w) = w

/-- The instruction a word decodes to is the one of the first row of the opcode table that matches the word (R87, R91). -/
def Obligations.FirstMatchingRowIsTheInstruction : Prop :=
  ∀ w : CmdWord, (firstRow w).map OpcodeRow.mnemonic = some (decode w).mnemonic

/-- The words that name no command, by their fields as numbers: a reserved opcode, a bit set in a zero field, or PASS without PBEN (R82,
R89). -/
def Obligations.ReservedWordsAreTheThreeKinds : Prop :=
  ∀ w : CmdWord,
    decode w = .reserved w ↔
      (6 ≤ w.toNat / 2 ^ 124 ∨
        (w.toNat / 2 ^ 124 = 0 ∧ w.toNat / 2 ^ 96 % 2 ^ 22 ≠ 0) ∨
        (w.toNat / 2 ^ 124 = 1 ∧ (w.toNat / 2 ^ 122 % 2 ^ 2 ≠ 0 ∨ w.toNat / 2 ^ 96 % 2 ^ 22 ≠ 0)) ∨
        (w.toNat / 2 ^ 124 ≤ 1 ∧ w.toNat / 2 ^ 118 % 2 = 0 ∧ w.toNat % 2 ^ 32 ≠ 0) ∨
        (w.toNat / 2 ^ 124 = 2 ∧ w.toNat % 2 ^ 124 ≠ 0) ∨
        (w.toNat / 2 ^ 124 = 3 ∧ w.toNat / 2 ^ 64 % 2 ^ 28 ≠ 0) ∨
        (w.toNat / 2 ^ 124 = 4 ∧ w.toNat % 2 ^ 116 ≠ 0) ∨
        (w.toNat / 2 ^ 124 = 5 ∧ w.toNat / 2 ^ 64 % 2 ^ 60 ≠ 0))

/-- Eight words written out in the spec (95_test_vectors.md section 2.1) decode to the commands it prints beside them. -/
def Obligations.SpecWordsDecode : Prop :=
  decode 0x05400000000F08A00000BB8000004E20#128 = .new 1#2 2#3 985248 48000 (some 20000) ∧
    decode 0x11C00000000F42400000562200002328#128 = .setSampling 3#3 1000000 22050 (some 9000) ∧
    decode 0x20000000000000000000000000000000#128 = .reset ∧
    decode 0x30A0000AB00000000000000000000007#128 = .writePwHi2 0xAB 7 ∧
    decode 0x3000000000000000FFFFFFFFFFFFFFFF#128 = .writeFreqLo1 0 (-1) ∧
    decode 0x3190000FF00000000000000000000000#128 = .writeOutOfRange 25 0xFF 0 ∧
    decode 0x41800000000000000000000000000000#128 = .read 24 ∧
    decode 0x5000000000000000FFFFFFFFFFFFFFFB#128 = .clock (-5)

/-- A step takes the oldest command word the host has issued and executes the instruction it decodes to; nothing else of the state is
touched on the way. With no command issued there is no step (the model's choice, log entry 1). -/
def Obligations.StepExecutesTheDecodedCommand : Prop :=
  (∀ (s : State) (w : CmdWord) (rest : List CmdWord),
      s.inbox = w :: rest → step s = exec (decode w) { s with inbox := rest }) ∧
    ∀ s : State, s.inbox = [] → step s = .refused .awaitingCommand

/-- The word placed by withFetchWord is the very next instruction: on a running engine nothing but the inbox is touched for a command that
needs one, and on an unconstructed instance nothing for NEW (log entry 3). -/
def Obligations.PlacedWordRunsNext : Prop :=
  ∀ (s : State) (nbits w : Nat),
    (∃ x, step (s.withFetchWord nbits w) = exec (decode (tableWord nbits w)) { s with inst := x }) ∧
      (∀ e, s.inst = .running e → (decode (tableWord nbits w)).mnemonic ≠ "NEW" →
        step (s.withFetchWord nbits w) = exec (decode (tableWord nbits w)) s) ∧
      (s.inst = .unconstructed → (decode (tableWord nbits w)).mnemonic = "NEW" →
        step (s.withFetchWord nbits w) = exec (decode (tableWord nbits w)) s)

/-! ### WRITE -/

/-- A WRITE to a data register, stamped with the current cycle, stores its value modulo 256 under the register's mask and changes nothing
else: the 22 forms that are no control register (R105, R120, R23). -/
def Obligations.DueRegisterWriteStores : Prop :=
  ∀ (i : Instr) (a : RegAddr) (value stamp : Int) (s : State) (e : Engine),
    i.registerWrite = some (a, value, stamp) → a.val ≠ 4 → a.val ≠ 11 → a.val ≠ 18 →
    s.inst = .running e → stamp = e.cyc → stamp ≤ 9223372036854775807 →
    exec i s = .next { s with
      inst := .running { e with
        reg := e.reg.set a (BitVec.ofNat 8 (value % 256).toNat &&&
          (if a.val = 3 ∨ a.val = 10 ∨ a.val = 17 then 0x0F#8 else if a.val = 21 then 0x07#8 else 0xFF#8)) }
      response := some { status := 0, data := 0, samples := [] } }

/-- A WRITE to CONTROL_v, stamped with the current cycle, stores the byte, moves the envelope stage on a gate edge and reloads the noise
register when TEST falls, and changes nothing else: the three control forms (R105, R120 to R122). -/
def Obligations.DueControlWriteMovesItsVoice : Prop :=
  ∀ (i : Instr) (a : RegAddr) (v : VoiceId) (value stamp : Int) (s : State) (e : Engine) (old new : Byte) (x : Voice),
    i.registerWrite = some (a, value, stamp) → a.val = 7 * v.val + 4 →
    s.inst = .running e → stamp = e.cyc → stamp ≤ 9223372036854775807 →
    old = e.reg[a] → new = BitVec.ofNat 8 (value % 256).toNat → x = e.voices[v] →
    exec i s = .next { s with
      inst := .running { e with
        reg := e.reg.set a new
        voices := e.voices.set v { x with
          envState := if old.getLsbD 0 = false ∧ new.getLsbD 0 = true then .attack
            else if old.getLsbD 0 = true ∧ new.getLsbD 0 = false then .release else x.envState
          sr := if old.getLsbD 3 = true ∧ new.getLsbD 3 = false then 0x7FFFF8#23 else x.sr } }
      response := some { status := 0, data := 0, samples := [] } }

/-- A WRITE stamped in the future changes the queue alone: its entry goes after the last entry whose stamp is not above its own (R105). That a
queue of any length takes one more entry is the model's choice of an unbounded `WQ_DEPTH` (log entry 8): R6 leaves it OPEN, and R105 (e)
refuses the WRITE when the queue is full (`FullQueueRefusesAWrite`). -/
def Obligations.FutureWriteIsQueued : Prop :=
  ∀ (i : Instr) (a : RegAddr) (value stamp : Int) (s : State) (e : Engine),
    i.registerWrite = some (a, value, stamp) → s.inst = .running e → e.cyc < stamp → stamp ≤ 9223372036854775807 →
    ∃ pre post : List PendingWrite,
      e.wq = pre ++ post ∧ (∀ p ∈ post, stamp < p.stamp) ∧ (∀ p, pre.getLast? = some p → p.stamp ≤ stamp) ∧
        exec i s = .next { s with
          inst := .running { e with wq := pre ++ { stamp := stamp, addr := a, value := value } :: post }
          response := some { status := 0, data := 0, samples := [] } }

/-- A WRITE stamped in the past does what the same WRITE stamped with the current cycle does, and sets the sticky flag `diag.nmw` (R105,
R292). -/
def Obligations.PastWriteIsClampedAndFlagged : Prop :=
  ∀ (i j : Instr) (a : RegAddr) (value stamp : Int) (s : State) (e : Engine),
    i.registerWrite = some (a, value, stamp) → j.registerWrite = some (a, value, e.cyc) →
    s.inst = .running e → stamp < e.cyc → e.cyc ≤ 9223372036854775807 →
    ∃ e1 : Engine,
      exec j s = .next { s with inst := .running e1, response := some { status := 0, data := 0, samples := [] } } ∧
        e1.diag = e.diag ∧ e1.wq = e.wq ∧
        exec i s = .next { s with
          inst := .running { e1 with diag := { nmw := true, underrun := e.diag.underrun } }
          response := some { status := 0, data := 0, samples := [] } }

/-- InvalidRegisterAddress: a WRITE to an address outside 0 to 24 changes nothing, whatever its stamp, and a READ of one neither; the
response is `(0, 0, empty)` (R291, R148). -/
def Obligations.OutOfRangeAddressDoesNothing : Prop :=
  ∀ (addr : Int) (s : State) (e : Engine), s.inst = .running e → addr < 0 ∨ 24 < addr →
    (∀ value stamp : Int, exec (.writeOutOfRange addr value stamp) s =
        .next { s with response := some { status := 0, data := 0, samples := [] } }) ∧
      exec (.readOutOfRange addr) s = .next { s with response := some { status := 0, data := 0, samples := [] } } ∧
      exec (.read addr) s = .next { s with response := some { status := 0, data := 0, samples := [] } }

/-- A CLOCK that would pass CYCLE_MAX and a WRITE stamped above it are refused (R304). -/
def Obligations.BeyondCycleMaxIsRefused : Prop :=
  ∀ (s : State) (e : Engine), s.inst = .running e →
    (∀ n : Int, cycleMax tables < e.cyc + max n 0 → exec (.clock n) s = .refused .beyondCycleMax) ∧
      ∀ (i : Instr) (a : RegAddr) (value stamp : Int),
        i.registerWrite = some (a, value, stamp) → cycleMax tables < stamp → exec i s = .refused .beyondCycleMax

/-- A WRITE to a register when `wq` already holds `WQ_DEPTH` entries is refused, for every configuration record that bounds the queue (R105
(e), U5). -/
def Obligations.FullQueueRefusesAWrite : Prop :=
  ∀ (c : Config.Tables) (d : Nat) (a : RegAddr) (value stamp : Int) (s : State) (e : Engine),
    c.wqDepth = some d → s.inst = .running e → stamp ≤ 2 ^ (c.cycleBits - 1) - 1 →
    (d ≤ e.wq.length → writeCommand c a.val value stamp s = .refused .queueFull) ∧
      (e.wq.length < d → ∃ t, writeCommand c a.val value stamp s = .next t)

/-- READ returns the addressed register, data 0 for an address outside 0 to 24, and changes no state (R106). -/
def Obligations.ReadReturnsTheRegister : Prop :=
  ∀ (s : State) (e : Engine), s.inst = .running e →
    (∀ a : RegAddr, exec (.read a.val) s =
        .next { s with response := some { status := 0, data := e.reg[a], samples := [] } }) ∧
      ∀ addr : Int, addr < 0 ∨ 24 < addr →
        exec (.readOutOfRange addr) s = .next { s with response := some { status := 0, data := 0, samples := [] } } ∧
          exec (.read addr) s = .next { s with response := some { status := 0, data := 0, samples := [] } }

/-- Every register reads back the value last written, modulo 256 and masked: for each of the 25 forms, a WRITE that is due followed by a
READ of the same address (R71, R105, R106, R23). -/
def Obligations.WrittenRegisterReadsBack : Prop :=
  ∀ (i : Instr) (a : RegAddr) (value stamp : Int) (s : State) (e : Engine),
    i.registerWrite = some (a, value, stamp) → s.inst = .running e → stamp ≤ e.cyc → e.cyc ≤ 9223372036854775807 →
    ∃ t u : State,
      exec i s = .next t ∧ exec (.read a.val) t = .next u ∧
        u.response = some
          { status := 0
            data := BitVec.ofNat 8 (value % 256).toNat &&&
              (if a.val = 3 ∨ a.val = 10 ∨ a.val = 17 then 0x0F#8 else if a.val = 21 then 0x07#8 else 0xFF#8)
            samples := [] }

/-- The pseudo-commands: WRFREQ, WRPW and WRFC, stamped with the current cycle, complete, give their two-register field the value written,
and change nothing but the field's two registers (R93, R64). -/
def Obligations.PseudoCommandsSetTheirField : Prop :=
  ∀ (is : List Instr) (low : RegAddr) (s : State) (e : Engine) (field : RegFile → Nat) (x : Nat),
    s.inst = .running e → e.cyc ≤ 9223372036854775807 →
    (∃ (v : VoiceId) (y : BitVec 16), is = wrFreq v y e.cyc ∧ low.val = 7 * v.val ∧ field = (fun r => (freq r v).toNat) ∧ x = y.toNat) ∨
      (∃ (v : VoiceId) (y : BitVec 12),
        is = wrPw v y e.cyc ∧ low.val = 7 * v.val + 2 ∧ field = (fun r => (pulseWidth r v).toNat) ∧ x = y.toNat) ∨
      (∃ y : BitVec 11, is = wrFc y e.cyc ∧ low.val = 21 ∧ field = (fun r => (cutoff r).toNat) ∧ x = y.toNat) →
    ∃ (i j : Instr) (t : State) (e1 : Engine),
      is = [i, j] ∧ exec i s = .next t ∧
        exec j t = .next { s with inst := .running e1, response := some { status := 0, data := 0, samples := [] } } ∧
        field e1.reg = x ∧ (∀ a : RegAddr, a.val ≠ low.val → a.val ≠ low.val + 1 → e1.reg[a] = e.reg[a]) ∧
        e1 = { e with reg := e1.reg }

/-- A WRITE that is due has no further effect when it is repeated: no second gate edge, no second reload (R66). -/
def Obligations.RepeatedDueWriteChangesNothing : Prop :=
  ∀ (i : Instr) (a : RegAddr) (value stamp : Int) (s t : State) (e : Engine),
    i.registerWrite = some (a, value, stamp) → s.inst = .running e → stamp ≤ e.cyc →
    exec i s = .next t → exec i t = .next t

/-- APPLY: the register takes the value modulo 256 under its mask; for a control register the gate edges and the fall of TEST act on its
voice; nothing else changes (R120 to R122). -/
def Obligations.ApplyStoresAndActsOnEdges : Prop :=
  ∀ (a : RegAddr) (value : Int) (e : Engine) (new : Byte),
    new = (BitVec.ofNat 8 (value % 256).toNat &&&
        (if a.val = 3 ∨ a.val = 10 ∨ a.val = 17 then 0x0F#8 else if a.val = 21 then 0x07#8 else 0xFF#8)) →
    (∀ v : VoiceId, a.val ≠ 7 * v.val + 4) ∧ applyWrite a value e = { e with reg := e.reg.set a new } ∨
      ∃ v : VoiceId, a.val = 7 * v.val + 4 ∧
        applyWrite a value e = { e with
          reg := e.reg.set a new
          voices := e.voices.set v { e.voices[v] with
            envState := if e.reg[a].getLsbD 0 = false ∧ new.getLsbD 0 = true then .attack
              else if e.reg[a].getLsbD 0 = true ∧ new.getLsbD 0 = false then .release else e.voices[v].envState
            sr := if e.reg[a].getLsbD 3 = true ∧ new.getLsbD 3 = false then 0x7FFFF8#23 else e.voices[v].sr } }

/-! ### NEW, SETSAMPLING, RESET, RESERVED -/

/-- NEW with a valid configuration constructs an engine in which every piece of state has its power-on value (R101, R53, R321). -/
def Obligations.NewConstructsThePowerOnEngine : Prop :=
  ∀ (model : BitVec 2) (method : BitVec 3) (clk out : Int) (pass : Option Int) (s : State),
    s.inst = .unconstructed → model.toNat < 2 → method.toNat < 4 → 0 < clk → 0 < out →
    exec (.new model method clk out pass) s = .next { s with
      inst := .running
        { model := if model.toNat = 0 then .mos6581 else .mos8580
          samp :=
            { method := if method.toNat = 0 then .fast else if method.toNat = 1 then .interpolate
                else if method.toNat = 2 then .resample else .resampleFastmem
              clk := clk.toNat, out := out.toNat, pass := pass }
          cyc := 0
          wq := []
          diag := { nmw := false, underrun := false }
          reg := Vector.replicate 25 0
          voices := Vector.replicate 3
            { acc := 0, sr := 0x7FFFF8#23, snapMsb := false, snapFall := false, envState := .release, env := 0, rc := 0, ec := 0 }
          filter := { vhp := 0, vbp := 0, vlp := 0 }
          resampler := { racc := 0, yPrev := 0, hist := [] } }
      response := some { status := 0, data := 0, samples := [] } }

/-- RESET gives every register, voice, the filter, the queue and the resampler their power-on values and keeps the chip model, the sampling
configuration, the cycle counter and the diagnostic flags (R104, R321, R323). -/
def Obligations.ResetRestoresPowerOn : Prop :=
  ∀ (s : State) (e : Engine), s.inst = .running e →
    exec .reset s = .next { s with
      inst := .running { e with
        wq := []
        reg := Vector.replicate 25 0
        voices := Vector.replicate 3
          { acc := 0, sr := 0x7FFFF8#23, snapMsb := false, snapFall := false, envState := .release, env := 0, rc := 0, ec := 0 }
        filter := { vhp := 0, vbp := 0, vlp := 0 }
        resampler := { racc := 0, yPrev := 0, hist := [] } }
      response := some { status := 0, data := 0, samples := [] } }

/-- SETSAMPLING with a valid configuration stores it and resets the resampler, and nothing else (R103, R322). -/
def Obligations.SetSamplingResetsTheResamplerOnly : Prop :=
  ∀ (method : BitVec 3) (clk out : Int) (pass : Option Int) (s : State) (e : Engine),
    s.inst = .running e → method.toNat < 4 → 0 < clk → 0 < out →
    exec (.setSampling method clk out pass) s = .next { s with
      inst := .running { e with
        samp :=
          { method := if method.toNat = 0 then .fast else if method.toNat = 1 then .interpolate
              else if method.toNat = 2 then .resample else .resampleFastmem
            clk := clk.toNat, out := out.toNat, pass := pass }
        resampler := { racc := 0, yPrev := 0, hist := [] } }
      response := some { status := 0, data := 0, samples := [] } }

/-- InvalidSamplingConfig: status 3 and no state change, exactly when the model code (of NEW) or the method code names nothing or a rate is
not positive; a failed NEW leaves the instance Unconstructed, a failed SETSAMPLING the old configuration (R293). -/
def Obligations.InvalidConfigurationChangesNothing : Prop :=
  (∀ (model : BitVec 2) (method : BitVec 3) (clk out : Int) (pass : Option Int) (s : State),
      s.inst = .unconstructed →
      (exec (.new model method clk out pass) s = .next { s with response := some { status := 3, data := 0, samples := [] } } ↔
        (2 ≤ model.toNat ∨ 4 ≤ method.toNat ∨ clk ≤ 0 ∨ out ≤ 0))) ∧
    ∀ (method : BitVec 3) (clk out : Int) (pass : Option Int) (s : State) (e : Engine),
      s.inst = .running e →
      (exec (.setSampling method clk out pass) s = .next { s with response := some { status := 3, data := 0, samples := [] } } ↔
        (4 ≤ method.toNat ∨ clk ≤ 0 ∨ out ≤ 0))

/-- A command other than NEW or a reserved word is refused on an Unconstructed instance, and NEW on a Running one (R109). -/
def Obligations.CommandsNeedTheirInstanceState : Prop :=
  (∀ (i : Instr) (s : State), s.inst = .unconstructed → i.mnemonic ≠ "NEW" → i.mnemonic ≠ "RESERVED" →
      exec i s = .refused .notConstructed) ∧
    ∀ (i : Instr) (s : State) (e : Engine), s.inst = .running e → i.mnemonic = "NEW" → exec i s = .refused .alreadyConstructed

/-- A reserved word is executed as nothing in both instance states: status 5, no state change (R108). -/
def Obligations.ReservedWordReturnsStatusFive : Prop :=
  ∀ (w : CmdWord) (s : State),
    exec (.reserved w) s = .next { s with response := some { status := 5, data := 0, samples := [] } }

/-- The shape of a response: the status is 0, 3 (from NEW and SETSAMPLING alone) or 5 (from a reserved word alone), the data byte is 0 but
for READ, the samples are empty but for CLOCK (R86). -/
def Obligations.ResponsesHaveTheirShape : Prop :=
  ∀ (i : Instr) (s t : State), exec i s = .next t →
    ∃ r, t.response = some r ∧
      (r.status = 0 ∨ r.status = 3 ∨ r.status = 5) ∧
      (r.status = 3 → i.mnemonic = "NEW" ∨ i.mnemonic = "SETSAMPLING") ∧
      (r.status = 5 ↔ i.mnemonic = "RESERVED") ∧
      (r.data ≠ 0 → i.mnemonic = "READ" ∨ i.mnemonic = "READ.OUT_OF_RANGE") ∧
      (r.samples ≠ [] → i.mnemonic = "CLOCK")

/-! ### CLOCK -/

/-- A CLOCK of no cycles, or of a negative number of them, runs no step and returns the empty sequence (R107 (a), (b)). -/
def Obligations.ClockOfNothingRunsNothing : Prop :=
  ∀ (n : Int) (s : State) (e : Engine), s.inst = .running e → n ≤ 0 → e.cyc ≤ 9223372036854775807 →
    exec (.clock n) s = .next { s with response := some { status := 0, data := 0, samples := [] } }

/-- A CLOCK completes, for any number of cycles, when nothing is queued, no voice is routed to the filter and the filter's state is 0: the
filter stays at 0, the registers and the queue stay, the counter advances by the number of cycles (R107, R244, R34). It rests on the default
EXT_IN = 0 (log entry 6). -/
def Obligations.ClockCompletesOnAnIdleFilter : Prop :=
  ∀ (n : Int) (s : State) (e : Engine), s.inst = .running e → e.wq = [] → e.filter = { vhp := 0, vbp := 0, vlp := 0 } →
    (∀ v : VoiceId, e.reg[23].getLsbD v.val = false) → e.cyc + max n 0 ≤ 9223372036854775807 →
    ∃ (e1 : Engine) (ss : List Sample),
      exec (.clock n) s = .next { s with inst := .running e1, response := some { status := 0, data := 0, samples := ss } } ∧
        e1.cyc = e.cyc + max n 0 ∧ e1.model = e.model ∧ e1.samp = e.samp ∧ e1.diag = e.diag ∧ e1.reg = e.reg ∧ e1.wq = [] ∧
        e1.filter = { vhp := 0, vbp := 0, vlp := 0 }

/-- One cycle step: the filter's recurrence, and the fault exactly when it leaves the signed 32-bit range (R242 to R244, R249). -/
def Obligations.CycleStepFaultsExactlyOnFilterOverflow : Prop :=
  ∀ (s : State) (e : Engine) (w0 q vi vhp vbp vlp : Int), s.inst = .running e → e.cyc < 9223372036854775807 →
    w0 = (Config.w0 e.model (BitVec.ofNat 11 (8 * e.reg[22].toNat + e.reg[21].toNat % 8)) : Int) →
    q = 15360000 / (10605 + 1000 * ((e.reg[23].toNat / 16 : Nat) : Int)) →
    vi = (mixed tables e).1 →
    vbp = e.filter.vbp - (w0 * e.filter.vhp) / 2 ^ 20 →
    vlp = e.filter.vlp - (w0 * e.filter.vbp) / 2 ^ 20 →
    vhp = (vbp * q) / 2 ^ 10 - vlp - vi →
    ((∀ x ∈ [vhp, vbp, vlp], -2 ^ 31 ≤ x ∧ x ≤ 2 ^ 31 - 1) →
        ∃ (t : State) (e1 : Engine), exec (.clock 1) s = .next t ∧ t.inst = .running e1 ∧
          e1.filter = { vhp := vhp, vbp := vbp, vlp := vlp }) ∧
      ((∃ x ∈ [vhp, vbp, vlp], x < -2 ^ 31 ∨ 2 ^ 31 - 1 < x) → exec (.clock 1) s = .fault .filterOverflow)

/-- CLOCK(a) followed by CLOCK(b) gives the final state and the concatenated samples of CLOCK(a + b), and a CLOCK(a + b) that completes can
be split (R107 (d), which the spec derives from CLOCK being a fold of CYCLE). -/
def Obligations.ClockSplitsAnywhere : Prop :=
  ∀ (a b : Int) (s : State), 0 ≤ a → 0 ≤ b →
    (∀ (t u : State) (ss1 ss2 : List Sample),
        exec (.clock a) s = .next t → exec (.clock b) t = .next u →
        t.response = some { status := 0, data := 0, samples := ss1 } →
        u.response = some { status := 0, data := 0, samples := ss2 } →
        exec (.clock (a + b)) s = .next { u with response := some { status := 0, data := 0, samples := ss1 ++ ss2 } }) ∧
      ∀ u : State, exec (.clock (a + b)) s = .next u →
        ∃ (t u' : State) (ss1 ss2 : List Sample),
          exec (.clock a) s = .next t ∧ exec (.clock b) t = .next u' ∧ u'.inst = u.inst ∧
            t.response = some { status := 0, data := 0, samples := ss1 } ∧
            u'.response = some { status := 0, data := 0, samples := ss2 } ∧
            u.response = some { status := 0, data := 0, samples := ss1 ++ ss2 }

/-- How many samples: CLOCK(n) entered with `racc = a` returns exactly `(a + n * out) div clk` samples and leaves `racc = (a + n * out) mod
clk` (R273, which the spec derives from R264). The premise is R45's range of `racc`, which the invariant keeps. -/
def Obligations.ClockReturnsTheSampleCount : Prop :=
  ∀ (n : Nat) (s t : State) (e : Engine), s.inst = .running e → e.resampler.racc < e.samp.clk → exec (.clock n) s = .next t →
    ∃ (e1 : Engine) (r : Response), t.inst = .running e1 ∧ t.response = some r ∧
      r.samples.length = (e.resampler.racc + n * e.samp.out) / e.samp.clk ∧
      e1.resampler.racc = (e.resampler.racc + n * e.samp.out) % e.samp.clk

/-- What a CLOCK leaves alone: the inbox, the chip model, the sampling configuration and both diagnostic flags; and, when no entry of the
queue falls due in it, every register and the queue. The counter advances by exactly the number of cycles (R34, R36, R107, R262, R271). -/
def Obligations.ClockKeepsWhatItMust : Prop :=
  ∀ (n : Int) (s t : State) (e : Engine), s.inst = .running e → exec (.clock n) s = .next t →
    ∃ e1 : Engine, t.inst = .running e1 ∧ t.inbox = s.inbox ∧ e1.model = e.model ∧ e1.samp = e.samp ∧ e1.diag = e.diag ∧
      e1.cyc = e.cyc + max n 0 ∧
      ((∀ p ∈ e.wq, e.cyc + max n 0 < p.stamp) → e1.reg = e.reg ∧ e1.wq = e.wq)

/-- Queued writes are applied when the counter reaches their stamp and not before. A CLOCK that ends earlier leaves the registers and the
queue; the CLOCK that reaches the stamp does what it does without the entries that are due, and then applies those in the order they stand in:
each stores its masked value, and each write to a control register moves its voice's stage on a gate edge and reloads its noise register when
TEST falls, with no cycle between two of them (R262, R67, R120 to R122, R329). -/
def Obligations.QueuedWritesApplyInOrder : Prop :=
  ∀ (stamp : Int) (s : State) (e : Engine) (due rest : List PendingWrite), s.inst = .running e →
    e.wq = due ++ rest → e.cyc < stamp → (∀ p ∈ due, p.stamp = stamp) → (∀ p ∈ rest, stamp < p.stamp) →
    (∀ (n : Int) (t : State), e.cyc + n < stamp → exec (.clock n) s = .next t →
        ∃ e1 : Engine, t.inst = .running e1 ∧ e1.reg = e.reg ∧ e1.wq = e.wq) ∧
      ∀ t : State, exec (.clock (stamp - e.cyc)) s = .next t →
        ∃ (t0 : State) (e0 e1 : Engine),
          exec (.clock (stamp - e.cyc)) { s with inst := .running { e with wq := rest } } = .next t0 ∧ t0.inst = .running e0 ∧
            t = { t0 with inst := .running e1 } ∧ e1 = { e0 with reg := e1.reg, voices := e1.voices } ∧
            e1.cyc = stamp ∧ e1.wq = rest ∧
            e1.reg = due.foldl (fun (r : RegFile) p =>
              r.set p.addr (BitVec.ofNat 8 (p.value % 256).toNat &&&
                (if p.addr.val = 3 ∨ p.addr.val = 10 ∨ p.addr.val = 17 then 0x0F#8
                  else if p.addr.val = 21 then 0x07#8 else 0xFF#8))) e.reg ∧
            ∀ (v : VoiceId) (c : RegAddr), c.val = 7 * v.val + 4 →
              (e1.reg[c], e1.voices[v]) = due.foldl (fun (q : Byte × Voice) p =>
                let new : Byte := BitVec.ofNat 8 (p.value % 256).toNat
                if p.addr = c then
                  (new, { q.2 with
                    envState := if q.1.getLsbD 0 = false ∧ new.getLsbD 0 = true then .attack
                      else if q.1.getLsbD 0 = true ∧ new.getLsbD 0 = false then .release else q.2.envState
                    sr := if q.1.getLsbD 3 = true ∧ new.getLsbD 3 = false then 0x7FFFF8#23 else q.2.sr })
                else q) (e.reg[c], e0.voices[v])

/-! ### The oscillators -/

/-- The decoded views of the register file, as numbers over the registers at their addresses: every field of a voice, of the filter and of
the output stage (R24 to R31). -/
def Obligations.DecodedViewsReadTheirBits : Prop :=
  (∀ (r : RegFile) (v : VoiceId),
      (freq r v).toNat = 256 * (r[7 * v.val + 1]'(by omega)).toNat + (r[7 * v.val]'(by omega)).toNat ∧
        (pulseWidth r v).toNat = 256 * ((r[7 * v.val + 3]'(by omega)).toNat % 16) + (r[7 * v.val + 2]'(by omega)).toNat ∧
        (waveSelect r v).toNat = (r[7 * v.val + 4]'(by omega)).toNat / 16 ∧
        (gate r v = true ↔ (r[7 * v.val + 4]'(by omega)).toNat % 2 = 1) ∧
        (sync r v = true ↔ (r[7 * v.val + 4]'(by omega)).toNat / 2 % 2 = 1) ∧
        (ring r v = true ↔ (r[7 * v.val + 4]'(by omega)).toNat / 4 % 2 = 1) ∧
        (testBit r v = true ↔ (r[7 * v.val + 4]'(by omega)).toNat / 8 % 2 = 1) ∧
        (attackRate r v).toNat = (r[7 * v.val + 5]'(by omega)).toNat / 16 ∧
        (decayRate r v).toNat = (r[7 * v.val + 5]'(by omega)).toNat % 16 ∧
        (sustain r v).toNat = (r[7 * v.val + 6]'(by omega)).toNat / 16 ∧
        (releaseRate r v).toNat = (r[7 * v.val + 6]'(by omega)).toNat % 16 ∧
        (filt r v = true ↔ r[23].toNat / 2 ^ v.val % 2 = 1) ∧
        ∀ k : Fin 7, voiceReg r v k = r[7 * v.val + k.val]'(by omega)) ∧
    ∀ r : RegFile,
      (cutoff r).toNat = 8 * r[22].toNat + r[21].toNat % 8 ∧ (resonance r).toNat = r[23].toNat / 16 ∧
        (filtex r = true ↔ r[23].toNat / 8 % 2 = 1) ∧ (volume r).toNat = r[24].toNat % 16 ∧
        (lowPass r = true ↔ r[24].toNat / 16 % 2 = 1) ∧ (bandPass r = true ↔ r[24].toNat / 32 % 2 = 1) ∧
        (highPass r = true ↔ r[24].toNat / 64 % 2 = 1) ∧ (voice3Off r = true ↔ r[24].toNat / 128 % 2 = 1)

/-- One cycle step of each accumulator: held at 0 by TEST, reset by a hard sync whose source's top bit fell in the step before, advanced by
the frequency modulo 2^24 otherwise; and the new snapshot bits (R161, R163 to R166). -/
def Obligations.AccumulatorAndSnapshotStep : Prop :=
  ∀ (s t : State) (e e1 : Engine) (v u : VoiceId), s.inst = .running e → exec (.clock 1) s = .next t → t.inst = .running e1 →
    u.val = (v.val + 2) % 3 →
    e1.voices[v].acc.toNat =
        (if (voiceReg e.reg v 4).getLsbD 3 = true then 0
          else if (voiceReg e.reg v 4).getLsbD 1 = true ∧ e.voices[u].snapFall = true then 0
          else (e.voices[v].acc.toNat + (256 * (voiceReg e.reg v 1).toNat + (voiceReg e.reg v 0).toNat)) % 2 ^ 24) ∧
      e1.voices[v].snapMsb = decide (2 ^ 23 ≤ e1.voices[v].acc.toNat) ∧
      e1.voices[v].snapFall = decide (2 ^ 23 ≤ e.voices[v].acc.toNat ∧ e1.voices[v].acc.toNat < 2 ^ 23)

/-- One cycle step of each noise register, with no write falling due: it shifts when TEST is clear and accumulator bit 19 rises, and when
NOISE is selected with another waveform each tap bit is ANDed with the output bit it feeds (R171, R176). -/
def Obligations.NoiseRegisterStep : Prop :=
  ∀ (s t : State) (e e1 : Engine) (v : VoiceId) (sr1 : BitVec 23), s.inst = .running e → exec (.clock 1) s = .next t →
    t.inst = .running e1 → (∀ p ∈ e.wq, e.cyc + 1 < p.stamp) →
    sr1.toNat =
      (if (voiceReg e.reg v 4).getLsbD 3 = false ∧ e.voices[v].acc.getLsbD 19 = false ∧ e1.voices[v].acc.getLsbD 19 = true
        then 2 * e.voices[v].sr.toNat % 2 ^ 23 + (e.voices[v].sr.toNat / 2 ^ 22 + e.voices[v].sr.toNat / 2 ^ 17) % 2
        else e.voices[v].sr.toNat) →
    (((voiceReg e.reg v 4).getLsbD 7 = false ∨ (voiceReg e.reg v 4).toNat / 16 % 8 = 0 ∨ (voiceReg e.reg v 4).getLsbD 3 = true) →
        e1.voices[v].sr = sr1) ∧
      ((voiceReg e.reg v 4).getLsbD 7 = true → (voiceReg e.reg v 4).toNat / 16 % 8 ≠ 0 → (voiceReg e.reg v 4).getLsbD 3 = false →
        (∀ p ∈ [(11, 22), (10, 20), (9, 16), (8, 13), (7, 11), (6, 7), (5, 4), (4, 2)],
            e1.voices[v].sr.getLsbD p.2 = (sr1.getLsbD p.2 && (waveforms tables e v).getLsbD p.1)) ∧
          ∀ k : Nat, k ∉ [22, 20, 16, 13, 11, 7, 4, 2] → e1.voices[v].sr.getLsbD k = sr1.getLsbD k)

/-- A locked noise register stays locked: once 0 it is 0 after any CLOCK in which no queued write falls due (R171, R176, R333). -/
def Obligations.LockedNoiseRegisterStaysLocked : Prop :=
  ∀ (n : Int) (s t : State) (e e1 : Engine) (v : VoiceId), s.inst = .running e → exec (.clock n) s = .next t →
    t.inst = .running e1 → (∀ p ∈ e.wq, e.cyc + max n 0 < p.stamp) → e.voices[v].sr = 0 → e1.voices[v].sr = 0

/-- While TEST is set the accumulator is 0 after every cycle step and the noise register does not change (R162). -/
def Obligations.TestBitHoldsTheOscillator : Prop :=
  ∀ (n : Int) (s t : State) (e e1 : Engine) (v : VoiceId), s.inst = .running e → 0 < n → exec (.clock n) s = .next t →
    t.inst = .running e1 → (∀ p ∈ e.wq, e.cyc + n < p.stamp) → (voiceReg e.reg v 4).getLsbD 3 = true →
    e1.voices[v].acc = 0 ∧ e1.voices[v].sr = e.voices[v].sr

/-- What a voice depends on: in a cycle step with no write falling due, two engines that agree on the chip model, on voice `v`'s seven
registers, on its state and on its source voice's two snapshot bits take voice `v` to the same state, whatever the rest of them holds (R163,
R164, R160). -/
def Obligations.VoiceDependsOnItselfAndItsSourceSnapshot : Prop :=
  ∀ (s s' t t' : State) (e e' e1 e1' : Engine) (v u : VoiceId), s.inst = .running e → s'.inst = .running e' →
    exec (.clock 1) s = .next t → exec (.clock 1) s' = .next t' → t.inst = .running e1 → t'.inst = .running e1' →
    (∀ p ∈ e.wq, e.cyc + 1 < p.stamp) → (∀ p ∈ e'.wq, e'.cyc + 1 < p.stamp) → u.val = (v.val + 2) % 3 →
    e.model = e'.model → (∀ k : Fin 7, voiceReg e.reg v k = voiceReg e'.reg v k) → e.voices[v] = e'.voices[v] →
    e.voices[u].snapMsb = e'.voices[u].snapMsb → e.voices[u].snapFall = e'.voices[u].snapFall →
    e1.voices[v] = e1'.voices[v]

/-- The waveform value of a cycle step, bit by bit: 0 with none selected, else the AND of the selected ones among triangle (folded by its
top bit and, with RING, the source's), sawtooth, pulse and noise (R167 to R169, R172 to R175). The combinations rest on the default COMB
(log entry 6). -/
def Obligations.WaveformIsTheAndOfTheSelected : Prop :=
  ∀ (e : Engine) (v u : VoiceId) (k acc : Nat) (sr1 : BitVec 23) (fold : Bool), u.val = (v.val + 2) % 3 → k < 12 →
    acc = (voiceStages tables e).voices[v].acc.toNat →
    sr1 = (if noiseClocks (testBit e.reg v) e.voices[v].acc (voiceStages tables e).voices[v].acc then shiftNoise e.voices[v].sr
      else e.voices[v].sr) →
    (fold = true ↔ (2 ^ 23 ≤ acc ↔ ¬((voiceReg e.reg v 4).getLsbD 2 = true ∧ e.voices[u].snapMsb = true))) →
    ((waveforms tables e v).getLsbD k = true ↔
      (voiceReg e.reg v 4).toNat / 16 ≠ 0 ∧
        ((voiceReg e.reg v 4).getLsbD 4 = true → (((if fold then 2 ^ 24 - 1 - acc else acc) / 2 ^ 11) % 2 ^ 12).testBit k = true) ∧
        ((voiceReg e.reg v 4).getLsbD 5 = true → (acc / 2 ^ 12).testBit k = true) ∧
        ((voiceReg e.reg v 4).getLsbD 6 = true →
          256 * ((voiceReg e.reg v 3).toNat % 16) + (voiceReg e.reg v 2).toNat ≤ acc / 2 ^ 12) ∧
        ((voiceReg e.reg v 4).getLsbD 7 = true → 4 ≤ k ∧ sr1.getLsbD ([2, 4, 7, 11, 13, 16, 20, 22].getD (k - 4) 0) = true))

/-! ### The envelope generators -/

/-- One cycle step of each envelope generator, with no write falling due: the rate counter, the linear attack, the stretched decay and
release, the sustain level (R191 to R199). -/
def Obligations.EnvelopeStep : Prop :=
  ∀ (s t : State) (e e1 : Engine) (v : VoiceId) (x y : Voice) (c period stretch : Nat), s.inst = .running e →
    exec (.clock 1) s = .next t → t.inst = .running e1 → (∀ p ∈ e.wq, e.cyc + 1 < p.stamp) →
    x = e.voices[v] → y = e1.voices[v] →
    c = (if x.rc.toNat + 1 = 0x8000 then 1 else x.rc.toNat + 1) →
    period = [9, 32, 63, 95, 149, 220, 267, 313, 392, 977, 1954, 3126, 3907, 11720, 19532, 31251].getD
      (match x.envState with
        | .attack => (voiceReg e.reg v 5).toNat / 16
        | .decaySustain => (voiceReg e.reg v 5).toNat % 16
        | .release => (voiceReg e.reg v 6).toNat % 16) 0 →
    stretch = (if 0x5E ≤ x.env.toNat then 1 else if 0x37 ≤ x.env.toNat then 2 else if 0x1B ≤ x.env.toNat then 4
      else if 0x0F ≤ x.env.toNat then 8 else if 0x07 ≤ x.env.toNat then 16 else if 0x01 ≤ x.env.toNat then 30 else 1) →
    (c ≠ period → y.rc.toNat = c ∧ y.env = x.env ∧ y.ec = x.ec ∧ y.envState = x.envState) ∧
      (c = period → y.rc = 0 ∧
        (x.envState = .attack →
          y.ec = 0 ∧ y.env.toNat = min 255 (x.env.toNat + 1) ∧
            y.envState = if 254 ≤ x.env.toNat then .decaySustain else .attack) ∧
        (x.envState ≠ .attack →
          y.envState = x.envState ∧
            (x.ec + 1 < stretch → y.ec = x.ec + 1 ∧ y.env = x.env) ∧
            (stretch ≤ x.ec + 1 → y.ec = 0 ∧
              y.env.toNat = if x.env.toNat = 0 ∨ (x.envState = .decaySustain ∧ x.env.toNat = 17 * ((voiceReg e.reg v 6).toNat / 16))
                then x.env.toNat else x.env.toNat - 1)))

/-- The level changes by at most 1 per cycle step, never falls while the stage is ATTACK and never rises in the other two (R201, which the
spec derives from R194 to R199). -/
def Obligations.EnvelopeLevelMovesByOneInItsDirection : Prop :=
  ∀ (s t : State) (e e1 : Engine) (v : VoiceId), s.inst = .running e → exec (.clock 1) s = .next t → t.inst = .running e1 →
    (e.voices[v].envState = .attack →
        e.voices[v].env.toNat ≤ e1.voices[v].env.toNat ∧ e1.voices[v].env.toNat ≤ e.voices[v].env.toNat + 1) ∧
      (e.voices[v].envState ≠ .attack →
        e1.voices[v].env.toNat ≤ e.voices[v].env.toNat ∧ e.voices[v].env.toNat ≤ e1.voices[v].env.toNat + 1)

/-- Any CLOCK through an attack raises the level or keeps it: with no write falling due, an envelope in ATTACK at the start and still in
ATTACK at the end has not fallen (R201, which the spec derives from R194 to R199; R121). -/
def Obligations.AttackNeverLowersTheLevel : Prop :=
  ∀ (n : Int) (s t : State) (e e1 : Engine) (v : VoiceId), s.inst = .running e → exec (.clock n) s = .next t →
    t.inst = .running e1 → (∀ p ∈ e.wq, e.cyc + max n 0 < p.stamp) → e1.voices[v].envState = .attack →
    e.voices[v].envState = .attack ∧ e.voices[v].env.toNat ≤ e1.voices[v].env.toNat

/-- The sustain level of the 4-bit value `x` is 17 times `x` (R193). -/
def Obligations.SustainLevelIsSeventeenTimes : Prop :=
  ∀ x : BitVec 4, (sustainLevel x).toNat = 17 * x.toNat

/-- `RATE_PERIOD`: the sixteen periods, each reachable by the 15-bit counter (R191). -/
def Obligations.RatePeriodTable : Prop :=
  (List.range 16).map (fun k => ratePeriod (BitVec.ofNat 4 k)) =
      [9, 32, 63, 95, 149, 220, 267, 313, 392, 977, 1954, 3126, 3907, 11720, 19532, 31251] ∧
    ∀ x : BitVec 4, 1 ≤ ratePeriod x ∧ ratePeriod x ≤ 0x7FFF

/-! ### Mixer, filter, output -/

/-- What each voice contributes, and where it goes: the silent value, the scaled product, the filter bits, voice 3 off, the external input
(R221 to R225). For every configuration record. -/
def Obligations.MixerRoutesTheVoices : Prop :=
  ∀ (c : Config.Tables) (e : Engine) (w : VoiceId → Wave) (vo : VoiceId → Int),
    (∀ v, vo v =
      if (voiceReg e.reg v 4).getLsbD 3 = true ∨ (voiceReg e.reg v 4).toNat / 16 = 0 then c.voiceDc e.model / 2 ^ 7
      else ((((c.waveDac e.model (w v)).toNat : Int) - c.waveZero e.model) * ((c.envDac e.model e.voices[v].env).toNat : Int) +
        c.voiceDc e.model) / 2 ^ 7) →
    (mixer c e w).1 =
        (∑ v : VoiceId, if e.reg[23].getLsbD v.val = true then vo v else 0) + (if e.reg[23].getLsbD 3 = true then c.extIn else 0) ∧
      (mixer c e w).2 =
        (∑ v : VoiceId, if e.reg[23].getLsbD v.val = true ∨ (v = 2 ∧ e.reg[24].getLsbD 7 = true) then 0 else vo v) +
          (if e.reg[23].getLsbD 3 = true then 0 else c.extIn)

/-- The mixer's range: with the default biases and offsets and no external input, and whatever the DAC tables hold, `|Vi|`, `|Vnf|` and
their sum are at most 12240 (R226, which the spec derives from R222 to R224). The defaults are premises. -/
def Obligations.MixerOutputIsBounded : Prop :=
  ∀ (c : Config.Tables) (e : Engine) (w : VoiceId → Wave),
    c.waveZero e.model = 0x800 → c.voiceDc e.model = 0 → c.extIn = 0 →
    |(mixer c e w).1| ≤ 12240 ∧ |(mixer c e w).2| ≤ 12240 ∧ |(mixer c e w).1| + |(mixer c e w).2| ≤ 12240

/-- The cycle sample of a step: the direct path plus the distorted sum of the selected taps, times the volume, over 11, rounded down and
clamped to 16 bits (R245 to R248). MIXER_DC is at its default 0 (log entry 6). -/
def Obligations.CycleSampleIsTheScaledSum : Prop :=
  ∀ (s t : State) (e e1 : Engine) (taps vd : Int), s.inst = .running e → exec (.clock 1) s = .next t → t.inst = .running e1 →
    taps = (if e.reg[24].getLsbD 4 = true then e1.filter.vlp else 0) + (if e.reg[24].getLsbD 5 = true then e1.filter.vbp else 0) +
      (if e.reg[24].getLsbD 6 = true then e1.filter.vhp else 0) →
    vd = (if e.model = .mos8580 then taps else Config.dist6581 taps) →
    e1.resampler.yPrev.toInt =
      max (-32768) (min 32767 (((mixed tables e).2 + vd) * ((e.reg[24].toNat % 16 : Nat) : Int) / 11))

/-- After a RESET the engine is silent: RESET completes, and every CLOCK after it, by any sampling method and for every table left OPEN,
completes and returns samples that are all 0 (R321, R324, R273). -/
def Obligations.ClockAfterResetIsSilent : Prop :=
  ∀ (s : State) (e : Engine), s.inst = .running e → 0 < e.samp.clk →
    ∃ t : State, exec .reset s = .next t ∧
      ∀ n : Nat, e.cyc + n ≤ 9223372036854775807 →
        ∃ u : State, exec (.clock n) t = .next u ∧
          u.response = some { status := 0, data := 0, samples := List.replicate (n * e.samp.out / e.samp.clk) 0 }

/-! ### The resampler -/

/-- The history is the shifted list: after a cycle step `hist[0]` is the new cycle sample, which is also the next step's `y_prev`, and
`hist[j+1]` is what `hist[j]` was, up to RINGSIZE = 16384 (R47, R263, R272). -/
def Obligations.HistoryShiftsByOne : Prop :=
  ∀ (s t : State) (e e1 : Engine), s.inst = .running e → exec (.clock 1) s = .next t → t.inst = .running e1 →
    histAt e1.resampler.hist 0 = e1.resampler.yPrev ∧
      (∀ j : Nat, j + 1 < 16384 → histAt e1.resampler.hist (j + 1) = histAt e.resampler.hist j) ∧
      ∀ j : Nat, 16384 ≤ j → histAt e1.resampler.hist j = 0

/-- The samples of a cycle step by FAST and INTERPOLATE: the `k`-th belongs to `r = racc + out - (k+1) * clk`; FAST takes the nearer cycle
sample, the newer at a tie; INTERPOLATE the rounded-down interpolation, which lies between the two (R264 to R266). -/
def Obligations.FastAndInterpolateSamples : Prop :=
  ∀ (s t : State) (e e1 : Engine) (ss : List Sample) (k r : Nat) (x : Sample), s.inst = .running e →
    exec (.clock 1) s = .next t → t.inst = .running e1 → t.response = some { status := 0, data := 0, samples := ss } →
    e.resampler.racc < e.samp.clk → ss[k]? = some x → r = e.resampler.racc + e.samp.out - (k + 1) * e.samp.clk →
    (e.samp.method = .fast → x = if 2 * r ≤ e.samp.out then e1.resampler.yPrev else e.resampler.yPrev) ∧
      (e.samp.method = .interpolate →
        x.toInt = e.resampler.yPrev.toInt +
            ((e1.resampler.yPrev.toInt - e.resampler.yPrev.toInt) * ((e.samp.out : Int) - (r : Int))) / (e.samp.out : Int) ∧
          min e.resampler.yPrev.toInt e1.resampler.yPrev.toInt ≤ x.toInt ∧
          x.toInt ≤ max e.resampler.yPrev.toInt e1.resampler.yPrev.toInt)

/-- The samples of a cycle step by the two sinc methods, for every kernel: one convolution at the row of the instant (RESAMPLE_FASTMEM), or
two and the interpolation between them, the row after the last being row 0 one cycle earlier (RESAMPLE) (R264, R267, R269, R270). -/
def Obligations.SincMethodSamples : Prop :=
  ∀ (s t : State) (e e1 : Engine) (ss : List Sample) (k r p : Nat) (x : Sample) (kern : Config.Kernel) (v1 v2 v : Int),
    s.inst = .running e → exec (.clock 1) s = .next t → t.inst = .running e1 →
    t.response = some { status := 0, data := 0, samples := ss } → ss[k]? = some x →
    r = e.resampler.racc + e.samp.out - (k + 1) * e.samp.clk →
    kern = Config.fir e.samp.method e.samp.clk e.samp.out e.samp.pass → p = r * kern.phases / e.samp.out →
    v1 = ∑ j ∈ Finset.range kern.taps, kern.weight p j * (histAt e1.resampler.hist j).toInt →
    v2 = (if p + 1 < kern.phases then ∑ j ∈ Finset.range kern.taps, kern.weight (p + 1) j * (histAt e1.resampler.hist j).toInt
      else ∑ j ∈ Finset.range kern.taps, kern.weight 0 j * (histAt e1.resampler.hist (j + 1)).toInt) →
    (e.samp.method = .resampleFastmem → v = v1) →
    (e.samp.method = .resample →
      v = v1 + ((v2 - v1) * ((r * kern.phases % e.samp.out : Nat) : Int)) / (e.samp.out : Int)) →
    (e.samp.method = .resample ∨ e.samp.method = .resampleFastmem) →
    x.toInt = max (-32768) (min 32767 (v / 2 ^ kern.shift))

/-- A constant is reproduced exactly by the sinc methods, by any kernel whose rows each sum to 2^FIR_SHIFT, once the history is full of it
(R268 to R270). -/
def Obligations.ConstantIsReproduced : Prop :=
  ∀ (kern : Config.Kernel) (h : List Sample) (y : Sample) (out r : Nat), r < out →
    (∀ p : Nat, p < kern.phases → ∑ j ∈ Finset.range kern.taps, kern.weight p j = 2 ^ kern.shift) →
    (∀ j : Nat, j ≤ kern.taps → histAt h j = y) →
    resampleSample kern h out r = (y, false) ∧ fastmemSample kern h out r = (y, false)

/-! ### Whole-machine rules -/

/-- The machine as it starts meets the invariant, and so does every engine NEW constructs from a valid configuration (R20, R53). -/
def Obligations.StartMeetsTheInvariant : Prop :=
  State.reset.Inv ∧
    ∀ (model : BitVec 2) (method : BitVec 3) (clk out : Int) (pass : Option Int) (s t : State),
      s.inst = .unconstructed → exec (.new model method clk out pass) s = .next t → t.Inv

/-- Every step keeps the invariant: the unimplemented register bits read 0, the queue stays sorted and in the future, the counter stays in
range, the snapshots are current, the stage is RELEASE exactly while the gate is 0, the filter stays in 32 bits, the accumulator of output
instants stays below the rate, the history keeps its canonical form (R23, R34, R35, R39, R43 to R45, R47, R200, R201, R249). -/
def Obligations.EveryStepKeepsTheInvariant : Prop :=
  ∀ s t : State, s.Inv → step s = .next t → t.Inv

/-- A running engine outlives every command: the chip model never changes, the sampling configuration only by SETSAMPLING, the counter only
by CLOCK and by its number of cycles, `diag.nmw` is set by a WRITE in the past and by nothing else and is never cleared, `diag.underrun`
never changes (R20, R34, R36, R52, R271, R301). The premise on WRITE.OUT_OF_RANGE is that row's own address range. -/
def Obligations.RunningEngineKeepsItsIdentity : Prop :=
  ∀ (i : Instr) (s t : State) (e : Engine), s.inst = .running e → exec i s = .next t →
    (∀ addr value stamp, i = .writeOutOfRange addr value stamp → addr < 0 ∨ 24 < addr) →
    ∃ e1 : Engine, t.inst = .running e1 ∧ t.inbox = s.inbox ∧ e1.model = e.model ∧
      (e1.samp = e.samp ∨ i.mnemonic = "SETSAMPLING") ∧
      (∀ n, i = .clock n → e1.cyc = e.cyc + max n 0) ∧ (i.mnemonic ≠ "CLOCK" → e1.cyc = e.cyc) ∧
      e1.diag.underrun = e.diag.underrun ∧
      (e1.diag.nmw = true ↔
        e.diag.nmw = true ∨ ∃ a value stamp, i.registerWrite = some (a, value, stamp) ∧ stamp < e.cyc)

/-- `exec` and `step` are the machine for the configuration record `tables`, whose fields are the model's choice where R7 leaves them open (log
entries 5 to 8); and under every record a step executes the decoded next command (R7, R11). -/
def Obligations.ExecIsTheMachineOfItsRecord : Prop :=
  (∀ (i : Instr) (s : State), execUnder tables i s = exec i s) ∧ (∀ s : State, stepUnder tables s = step s) ∧
    ∀ (c : Config.Tables) (s : State) (w : CmdWord) (rest : List CmdWord),
      s.inbox = w :: rest → stepUnder c s = execUnder c (decode w) { s with inbox := rest }

/-- Under every configuration record whose `EXP_PERIOD` is at most 30, the bound of R192's table, every step keeps the invariant: whatever the
other tables, `CYCLE_BITS` and `WQ_DEPTH` are (R7, R11 and the rules of `EveryStepKeepsTheInvariant`). -/
def Obligations.EveryStepUnderAnyRecordKeepsTheInvariant : Prop :=
  ∀ (c : Config.Tables) (s t : State), (∀ level, c.expPeriod level ≤ 30) → s.InvUnder c → stepUnder c s = .next t → t.InvUnder c
end

