-- ==== Sys2Proof/Laws/State.lean ====
section
/-! SUPPORT. One lemma per field per update of the state records, each true by rfl, so that no later proof unfolds a record update. -/

namespace Sys2Proof.Machine

/-! ### writeReg -/

@[simp] theorem writeReg_model (e : Engine) (a : RegAddr) (b : Byte) : (writeReg e a b).model = e.model := rfl
@[simp] theorem writeReg_samp (e : Engine) (a : RegAddr) (b : Byte) : (writeReg e a b).samp = e.samp := rfl
@[simp] theorem writeReg_cyc (e : Engine) (a : RegAddr) (b : Byte) : (writeReg e a b).cyc = e.cyc := rfl
@[simp] theorem writeReg_wq (e : Engine) (a : RegAddr) (b : Byte) : (writeReg e a b).wq = e.wq := rfl
@[simp] theorem writeReg_diag (e : Engine) (a : RegAddr) (b : Byte) : (writeReg e a b).diag = e.diag := rfl
@[simp] theorem writeReg_reg (e : Engine) (a : RegAddr) (b : Byte) : (writeReg e a b).reg = e.reg.set a b := rfl
@[simp] theorem writeReg_voices (e : Engine) (a : RegAddr) (b : Byte) : (writeReg e a b).voices = e.voices := rfl
@[simp] theorem writeReg_filter (e : Engine) (a : RegAddr) (b : Byte) : (writeReg e a b).filter = e.filter := rfl
@[simp] theorem writeReg_resampler (e : Engine) (a : RegAddr) (b : Byte) : (writeReg e a b).resampler = e.resampler := rfl

/-! ### modifyVoice -/

@[simp] theorem modifyVoice_model (e : Engine) (v : VoiceId) (f : Voice → Voice) : (modifyVoice e v f).model = e.model := rfl
@[simp] theorem modifyVoice_samp (e : Engine) (v : VoiceId) (f : Voice → Voice) : (modifyVoice e v f).samp = e.samp := rfl
@[simp] theorem modifyVoice_cyc (e : Engine) (v : VoiceId) (f : Voice → Voice) : (modifyVoice e v f).cyc = e.cyc := rfl
@[simp] theorem modifyVoice_wq (e : Engine) (v : VoiceId) (f : Voice → Voice) : (modifyVoice e v f).wq = e.wq := rfl
@[simp] theorem modifyVoice_diag (e : Engine) (v : VoiceId) (f : Voice → Voice) : (modifyVoice e v f).diag = e.diag := rfl
@[simp] theorem modifyVoice_reg (e : Engine) (v : VoiceId) (f : Voice → Voice) : (modifyVoice e v f).reg = e.reg := rfl
@[simp] theorem modifyVoice_voices (e : Engine) (v : VoiceId) (f : Voice → Voice) : (modifyVoice e v f).voices = e.voices.set v (f e.voices[v]) := rfl
@[simp] theorem modifyVoice_filter (e : Engine) (v : VoiceId) (f : Voice → Voice) : (modifyVoice e v f).filter = e.filter := rfl
@[simp] theorem modifyVoice_resampler (e : Engine) (v : VoiceId) (f : Voice → Voice) : (modifyVoice e v f).resampler = e.resampler := rfl

/-! ### raiseFlag -/

@[simp] theorem raiseFlag_model (c : ErrorClass) (e : Engine) : (raiseFlag c e).model = e.model := by cases c <;> rfl
@[simp] theorem raiseFlag_samp (c : ErrorClass) (e : Engine) : (raiseFlag c e).samp = e.samp := by cases c <;> rfl
@[simp] theorem raiseFlag_cyc (c : ErrorClass) (e : Engine) : (raiseFlag c e).cyc = e.cyc := by cases c <;> rfl
@[simp] theorem raiseFlag_wq (c : ErrorClass) (e : Engine) : (raiseFlag c e).wq = e.wq := by cases c <;> rfl
@[simp] theorem raiseFlag_reg (c : ErrorClass) (e : Engine) : (raiseFlag c e).reg = e.reg := by cases c <;> rfl
@[simp] theorem raiseFlag_voices (c : ErrorClass) (e : Engine) : (raiseFlag c e).voices = e.voices := by cases c <;> rfl
@[simp] theorem raiseFlag_filter (c : ErrorClass) (e : Engine) : (raiseFlag c e).filter = e.filter := by cases c <;> rfl
@[simp] theorem raiseFlag_resampler (c : ErrorClass) (e : Engine) : (raiseFlag c e).resampler = e.resampler := by cases c <;> rfl
@[simp] theorem raiseFlag_nmw_diag (e : Engine) : (raiseFlag .nonMonotonicCycleWrite e).diag = { nmw := true, underrun := e.diag.underrun } := rfl
@[simp] theorem raiseFlag_underrun_diag (e : Engine) : (raiseFlag .resamplerBufferUnderrun e).diag = { nmw := e.diag.nmw, underrun := true } := rfl

/-! ### gateEdge, testEdge -/

@[simp] theorem gateEdge_acc (o n : Bool) (x : Voice) : (gateEdge o n x).acc = x.acc := by
  unfold gateEdge; split <;> [rfl; (split <;> rfl)]
@[simp] theorem gateEdge_sr (o n : Bool) (x : Voice) : (gateEdge o n x).sr = x.sr := by
  unfold gateEdge; split <;> [rfl; (split <;> rfl)]
@[simp] theorem gateEdge_snapMsb (o n : Bool) (x : Voice) : (gateEdge o n x).snapMsb = x.snapMsb := by
  unfold gateEdge; split <;> [rfl; (split <;> rfl)]
@[simp] theorem gateEdge_snapFall (o n : Bool) (x : Voice) : (gateEdge o n x).snapFall = x.snapFall := by
  unfold gateEdge; split <;> [rfl; (split <;> rfl)]
@[simp] theorem gateEdge_envState (o n : Bool) (x : Voice) : (gateEdge o n x).envState = if rises o n then .attack else if falls o n then .release else x.envState := by
  unfold gateEdge; split <;> [rfl; (split <;> rfl)]
@[simp] theorem gateEdge_env (o n : Bool) (x : Voice) : (gateEdge o n x).env = x.env := by
  unfold gateEdge; split <;> [rfl; (split <;> rfl)]
@[simp] theorem gateEdge_rc (o n : Bool) (x : Voice) : (gateEdge o n x).rc = x.rc := by
  unfold gateEdge; split <;> [rfl; (split <;> rfl)]
@[simp] theorem gateEdge_ec (o n : Bool) (x : Voice) : (gateEdge o n x).ec = x.ec := by
  unfold gateEdge; split <;> [rfl; (split <;> rfl)]
@[simp] theorem testEdge_acc (o n : Bool) (x : Voice) : (testEdge o n x).acc = x.acc := by
  unfold testEdge; split <;> rfl
@[simp] theorem testEdge_sr (o n : Bool) (x : Voice) : (testEdge o n x).sr = if falls o n then srReset else x.sr := by
  unfold testEdge; split <;> rfl
@[simp] theorem testEdge_snapMsb (o n : Bool) (x : Voice) : (testEdge o n x).snapMsb = x.snapMsb := by
  unfold testEdge; split <;> rfl
@[simp] theorem testEdge_snapFall (o n : Bool) (x : Voice) : (testEdge o n x).snapFall = x.snapFall := by
  unfold testEdge; split <;> rfl
@[simp] theorem testEdge_envState (o n : Bool) (x : Voice) : (testEdge o n x).envState = x.envState := by
  unfold testEdge; split <;> rfl
@[simp] theorem testEdge_env (o n : Bool) (x : Voice) : (testEdge o n x).env = x.env := by
  unfold testEdge; split <;> rfl
@[simp] theorem testEdge_rc (o n : Bool) (x : Voice) : (testEdge o n x).rc = x.rc := by
  unfold testEdge; split <;> rfl
@[simp] theorem testEdge_ec (o n : Bool) (x : Voice) : (testEdge o n x).ec = x.ec := by
  unfold testEdge; split <;> rfl

/-! ### resamplerReset, powerOn, construct -/

@[simp] theorem resamplerReset_model (e : Engine) : (resamplerReset e).model = e.model := rfl
@[simp] theorem resamplerReset_samp (e : Engine) : (resamplerReset e).samp = e.samp := rfl
@[simp] theorem resamplerReset_cyc (e : Engine) : (resamplerReset e).cyc = e.cyc := rfl
@[simp] theorem resamplerReset_wq (e : Engine) : (resamplerReset e).wq = e.wq := rfl
@[simp] theorem resamplerReset_diag (e : Engine) : (resamplerReset e).diag = e.diag := rfl
@[simp] theorem resamplerReset_reg (e : Engine) : (resamplerReset e).reg = e.reg := rfl
@[simp] theorem resamplerReset_voices (e : Engine) : (resamplerReset e).voices = e.voices := rfl
@[simp] theorem resamplerReset_filter (e : Engine) : (resamplerReset e).filter = e.filter := rfl
@[simp] theorem resamplerReset_resampler (e : Engine) : (resamplerReset e).resampler = resamplerPowerOn := rfl
@[simp] theorem powerOn_model (e : Engine) : (powerOn e).model = e.model := rfl
@[simp] theorem powerOn_samp (e : Engine) : (powerOn e).samp = e.samp := rfl
@[simp] theorem powerOn_cyc (e : Engine) : (powerOn e).cyc = e.cyc := rfl
@[simp] theorem powerOn_wq (e : Engine) : (powerOn e).wq = [] := rfl
@[simp] theorem powerOn_diag (e : Engine) : (powerOn e).diag = e.diag := rfl
@[simp] theorem powerOn_reg (e : Engine) : (powerOn e).reg = Vector.replicate 25 0 := rfl
@[simp] theorem powerOn_voices (e : Engine) : (powerOn e).voices = Vector.replicate 3 voicePowerOn := rfl
@[simp] theorem powerOn_filter (e : Engine) : (powerOn e).filter = { vhp := 0, vbp := 0, vlp := 0 } := rfl
@[simp] theorem powerOn_resampler (e : Engine) : (powerOn e).resampler = resamplerPowerOn := rfl
@[simp] theorem construct_model (m : ChipModel) (c : SamplingConfig) : (construct m c).model = m := rfl
@[simp] theorem construct_samp (m : ChipModel) (c : SamplingConfig) : (construct m c).samp = c := rfl
@[simp] theorem construct_cyc (m : ChipModel) (c : SamplingConfig) : (construct m c).cyc = 0 := rfl
@[simp] theorem construct_wq (m : ChipModel) (c : SamplingConfig) : (construct m c).wq = [] := rfl
@[simp] theorem construct_diag (m : ChipModel) (c : SamplingConfig) : (construct m c).diag = { nmw := false, underrun := false } := rfl
@[simp] theorem construct_reg (m : ChipModel) (c : SamplingConfig) : (construct m c).reg = Vector.replicate 25 0 := rfl
@[simp] theorem construct_voices (m : ChipModel) (c : SamplingConfig) : (construct m c).voices = Vector.replicate 3 voicePowerOn := rfl
@[simp] theorem construct_filter (m : ChipModel) (c : SamplingConfig) : (construct m c).filter = { vhp := 0, vbp := 0, vlp := 0 } := rfl
@[simp] theorem construct_resampler (m : ChipModel) (c : SamplingConfig) : (construct m c).resampler = resamplerPowerOn := rfl

/-! ### The response -/

@[simp] theorem respond_inbox (s : State) (r : Response) : (respond s r).inbox = s.inbox := rfl
@[simp] theorem respond_inst (s : State) (r : Response) : (respond s r).inst = s.inst := rfl
@[simp] theorem respond_response (s : State) (r : Response) : (respond s r).response = some r := rfl
@[simp] theorem takeError_inbox (c : ErrorClass) (s : State) : (takeError c s).inbox = s.inbox := rfl
@[simp] theorem takeError_inst (c : ErrorClass) (s : State) : (takeError c s).inst = s.inst := rfl
@[simp] theorem takeError_response (c : ErrorClass) (s : State) : (takeError c s).response = some { status := errorStatus c, data := 0, samples := [] } := rfl
@[simp] theorem finish_inbox (s : State) (e : Engine) (r : Response) : (finish s e r).inbox = s.inbox := rfl
@[simp] theorem finish_inst (s : State) (e : Engine) (r : Response) : (finish s e r).inst = .running e := rfl
@[simp] theorem finish_response (s : State) (e : Engine) (r : Response) : (finish s e r).response = some r := rfl

/-! ### The stages of a cycle step -/

@[simp] theorem oscillators_model (t : Config.Tables) (e : Engine) : (oscillators t e).model = e.model := rfl
@[simp] theorem envelopes_model (t : Config.Tables) (e : Engine) : (envelopes t e).model = e.model := rfl
@[simp] theorem voiceStages_model (t : Config.Tables) (e : Engine) : (voiceStages t e).model = e.model := rfl
@[simp] theorem pipeline_model (t : Config.Tables) (e : Engine) : (pipeline t e).1.model = e.model := rfl
@[simp] theorem oscillators_samp (t : Config.Tables) (e : Engine) : (oscillators t e).samp = e.samp := rfl
@[simp] theorem envelopes_samp (t : Config.Tables) (e : Engine) : (envelopes t e).samp = e.samp := rfl
@[simp] theorem voiceStages_samp (t : Config.Tables) (e : Engine) : (voiceStages t e).samp = e.samp := rfl
@[simp] theorem pipeline_samp (t : Config.Tables) (e : Engine) : (pipeline t e).1.samp = e.samp := rfl
@[simp] theorem oscillators_cyc (t : Config.Tables) (e : Engine) : (oscillators t e).cyc = e.cyc := rfl
@[simp] theorem envelopes_cyc (t : Config.Tables) (e : Engine) : (envelopes t e).cyc = e.cyc := rfl
@[simp] theorem voiceStages_cyc (t : Config.Tables) (e : Engine) : (voiceStages t e).cyc = e.cyc := rfl
@[simp] theorem pipeline_cyc (t : Config.Tables) (e : Engine) : (pipeline t e).1.cyc = e.cyc := rfl
@[simp] theorem oscillators_wq (t : Config.Tables) (e : Engine) : (oscillators t e).wq = e.wq := rfl
@[simp] theorem envelopes_wq (t : Config.Tables) (e : Engine) : (envelopes t e).wq = e.wq := rfl
@[simp] theorem voiceStages_wq (t : Config.Tables) (e : Engine) : (voiceStages t e).wq = e.wq := rfl
@[simp] theorem pipeline_wq (t : Config.Tables) (e : Engine) : (pipeline t e).1.wq = e.wq := rfl
@[simp] theorem oscillators_diag (t : Config.Tables) (e : Engine) : (oscillators t e).diag = e.diag := rfl
@[simp] theorem envelopes_diag (t : Config.Tables) (e : Engine) : (envelopes t e).diag = e.diag := rfl
@[simp] theorem voiceStages_diag (t : Config.Tables) (e : Engine) : (voiceStages t e).diag = e.diag := rfl
@[simp] theorem pipeline_diag (t : Config.Tables) (e : Engine) : (pipeline t e).1.diag = e.diag := rfl
@[simp] theorem oscillators_reg (t : Config.Tables) (e : Engine) : (oscillators t e).reg = e.reg := rfl
@[simp] theorem envelopes_reg (t : Config.Tables) (e : Engine) : (envelopes t e).reg = e.reg := rfl
@[simp] theorem voiceStages_reg (t : Config.Tables) (e : Engine) : (voiceStages t e).reg = e.reg := rfl
@[simp] theorem pipeline_reg (t : Config.Tables) (e : Engine) : (pipeline t e).1.reg = e.reg := rfl
@[simp] theorem oscillators_filter (t : Config.Tables) (e : Engine) : (oscillators t e).filter = e.filter := rfl
@[simp] theorem envelopes_filter (t : Config.Tables) (e : Engine) : (envelopes t e).filter = e.filter := rfl
@[simp] theorem voiceStages_filter (t : Config.Tables) (e : Engine) : (voiceStages t e).filter = e.filter := rfl
@[simp] theorem pipeline_filter (t : Config.Tables) (e : Engine) : (pipeline t e).1.filter = filtered t e := rfl
@[simp] theorem oscillators_resampler (t : Config.Tables) (e : Engine) : (oscillators t e).resampler = e.resampler := rfl
@[simp] theorem envelopes_resampler (t : Config.Tables) (e : Engine) : (envelopes t e).resampler = e.resampler := rfl
@[simp] theorem voiceStages_resampler (t : Config.Tables) (e : Engine) : (voiceStages t e).resampler = e.resampler := rfl
@[simp] theorem pipeline_resampler (t : Config.Tables) (e : Engine) : (pipeline t e).1.resampler = e.resampler := rfl
@[simp] theorem pipeline_voices (t : Config.Tables) (e : Engine) : (pipeline t e).1.voices = (voiceStages t e).voices := rfl
@[simp] theorem resampleStep_model (t : Config.Tables) (e : Engine) (y : Sample) : (resampleStep t e y).1.model = e.model := by
  unfold resampleStep; dsimp only; split <;> simp
@[simp] theorem resampleStep_samp (t : Config.Tables) (e : Engine) (y : Sample) : (resampleStep t e y).1.samp = e.samp := by
  unfold resampleStep; dsimp only; split <;> simp
@[simp] theorem resampleStep_cyc (t : Config.Tables) (e : Engine) (y : Sample) : (resampleStep t e y).1.cyc = e.cyc := by
  unfold resampleStep; dsimp only; split <;> simp
@[simp] theorem resampleStep_wq (t : Config.Tables) (e : Engine) (y : Sample) : (resampleStep t e y).1.wq = e.wq := by
  unfold resampleStep; dsimp only; split <;> simp
@[simp] theorem resampleStep_reg (t : Config.Tables) (e : Engine) (y : Sample) : (resampleStep t e y).1.reg = e.reg := by
  unfold resampleStep; dsimp only; split <;> simp
@[simp] theorem resampleStep_voices (t : Config.Tables) (e : Engine) (y : Sample) : (resampleStep t e y).1.voices = e.voices := by
  unfold resampleStep; dsimp only; split <;> simp
@[simp] theorem resampleStep_filter (t : Config.Tables) (e : Engine) (y : Sample) : (resampleStep t e y).1.filter = e.filter := by
  unfold resampleStep; dsimp only; split <;> simp

end Sys2Proof.Machine
end

