-- ==== Sys2Proof/Laws/Ops.lean ====
section
/-! SUPPORT. What each shared operation over registers, the queue and the instance can do, said once. -/

namespace Sys2Proof.Machine

/-! ### Register file -/

theorem readReg_writeReg_self (e : Engine) (a : RegAddr) (b : Byte) : readReg (writeReg e a b) a = b := by
  simp [readReg]

theorem readReg_writeReg_of_ne (e : Engine) {a c : RegAddr} (b : Byte) (h : a ≠ c) :
    readReg (writeReg e a b) c = readReg e c := by
  have hv : a.val ≠ c.val := fun hh => h (Fin.ext hh)
  simp [readReg, hv]

theorem maskedValue_and_mask (a : RegAddr) (value : Int) : maskedValue a value &&& mask a = maskedValue a value := by
  simp [maskedValue, BitVec.and_assoc]

@[simp] theorem cycleMax_tables : cycleMax tables = 9223372036854775807 := by decide

@[simp] theorem queueIsFull_tables (e : Engine) : queueIsFull tables e = false := rfl

theorem registerAt_some {addr : Int} {a : RegAddr} : registerAt addr = some a ↔ addr = (a.val : Int) := by
  unfold registerAt
  split
  · rename_i h
    constructor
    · intro h1
      have := congrArg Fin.val (Option.some.inj h1)
      simp only at this
      omega
    · intro h1
      subst h1
      simp
  · rename_i h
    constructor
    · simp
    · intro h1
      omega

@[simp] theorem registerAt_val (a : RegAddr) : registerAt (a.val : Int) = some a := registerAt_some.2 rfl

theorem registerAt_none {addr : Int} : registerAt addr = none ↔ addr < 0 ∨ 24 < addr := by
  unfold registerAt
  split <;> simp <;> omega

/-! ### APPLY -/

@[simp] theorem applyWrite_reg (a : RegAddr) (value : Int) (e : Engine) :
    (applyWrite a value e).reg = e.reg.set a (maskedValue a value) := by
  unfold applyWrite; dsimp only; split <;> simp

@[simp] theorem applyWrite_model (a : RegAddr) (value : Int) (e : Engine) : (applyWrite a value e).model = e.model := by
  unfold applyWrite; dsimp only; split <;> simp

@[simp] theorem applyWrite_samp (a : RegAddr) (value : Int) (e : Engine) : (applyWrite a value e).samp = e.samp := by
  unfold applyWrite; dsimp only; split <;> simp

@[simp] theorem applyWrite_cyc (a : RegAddr) (value : Int) (e : Engine) : (applyWrite a value e).cyc = e.cyc := by
  unfold applyWrite; dsimp only; split <;> simp

@[simp] theorem applyWrite_wq (a : RegAddr) (value : Int) (e : Engine) : (applyWrite a value e).wq = e.wq := by
  unfold applyWrite; dsimp only; split <;> simp

@[simp] theorem applyWrite_diag (a : RegAddr) (value : Int) (e : Engine) : (applyWrite a value e).diag = e.diag := by
  unfold applyWrite; dsimp only; split <;> simp

@[simp] theorem applyWrite_filter (a : RegAddr) (value : Int) (e : Engine) : (applyWrite a value e).filter = e.filter := by
  unfold applyWrite; dsimp only; split <;> simp

@[simp] theorem applyWrite_resampler (a : RegAddr) (value : Int) (e : Engine) :
    (applyWrite a value e).resampler = e.resampler := by
  unfold applyWrite; dsimp only; split <;> simp

/-- What APPLY does to voice `v`: the edges of `CONTROL_v` if `a` is that register, nothing otherwise (R120). -/
theorem applyWrite_voice (a : RegAddr) (value : Int) (e : Engine) (v : VoiceId) :
    (applyWrite a value e).voices[v] =
      if controlVoice a = some v then
        testEdge ((readReg e a).getLsbD 3) ((maskedValue a value).getLsbD 3)
          (gateEdge ((readReg e a).getLsbD 0) ((maskedValue a value).getLsbD 0) e.voices[v])
      else e.voices[v] := by
  unfold applyWrite
  dsimp only
  split
  · rename_i h; simp [h]
  · rename_i u h
    by_cases huv : u = v
    · subst huv; simp [h]
    · have hv : u.val ≠ v.val := fun hh => huv (Fin.ext hh)
      simp [h, huv, hv]

theorem controlVoice_some {a : RegAddr} {v : VoiceId} : controlVoice a = some v ↔ a.val = 7 * v.val + 4 := by
  revert a v; decide

/-- The fields of a voice that APPLY never changes (R120, R121). -/
theorem applyWrite_voice_frame (a : RegAddr) (value : Int) (e : Engine) (v : VoiceId) :
    (applyWrite a value e).voices[v].acc = e.voices[v].acc ∧ (applyWrite a value e).voices[v].snapMsb = e.voices[v].snapMsb ∧
      (applyWrite a value e).voices[v].snapFall = e.voices[v].snapFall ∧ (applyWrite a value e).voices[v].env = e.voices[v].env ∧
      (applyWrite a value e).voices[v].rc = e.voices[v].rc ∧ (applyWrite a value e).voices[v].ec = e.voices[v].ec := by
  rw [applyWrite_voice]
  split <;> simp

/-! ### A command and the instance -/

@[simp] theorem onRunning_running {s : State} {e : Engine} (h : s.inst = .running e)
    (k : Engine → Host.Outcome State Fault Refusal) : onRunning s k = k e := by simp [onRunning, h]

@[simp] theorem onRunning_unconstructed {s : State} (h : s.inst = .unconstructed)
    (k : Engine → Host.Outcome State Fault Refusal) : onRunning s k = .refused .notConstructed := by simp [onRunning, h]

theorem onRunning_next {s t : State} {k : Engine → Host.Outcome State Fault Refusal} (h : onRunning s k = .next t) :
    ∃ e, s.inst = .running e ∧ k e = .next t := by
  unfold onRunning at h
  split at h
  · cases h
  · exact ⟨_, by assumption, h⟩

/-- A register form of WRITE is WRITE at its address (R123 to R147). -/
theorem exec_registerWrite {i : Instr} {a : RegAddr} {value stamp : Int} (h : i.registerWrite = some (a, value, stamp))
    (s : State) : exec i s = writeCommand tables a.val value stamp s := by
  cases i <;> simp only [Instr.registerWrite, Option.some.injEq, Prod.mk.injEq, reduceCtorEq] at h <;>
    obtain ⟨rfl, rfl, rfl⟩ := h <;> rfl

/-- CLOCK is its command (R107). -/
theorem exec_clock (n : Int) (s : State) : exec (.clock n) s = clockCommand tables n s := rfl

/-- READ is its command in both rows (R106). -/
theorem exec_read (addr : Int) (s : State) :
    exec (.read addr) s = readCommand addr s ∧ exec (.readOutOfRange addr) s = readCommand addr s := ⟨rfl, rfl⟩

/-- WRITE to a register on a running engine (R105). -/
theorem writeCommand_register {s : State} {e : Engine} (h : s.inst = .running e) (a : RegAddr) (value stamp : Int)
    (hs : stamp ≤ 9223372036854775807) :
    writeCommand tables a.val value stamp s = .next (finish s (scheduleWrite a value stamp e) okResponse) := by
  simp [writeCommand, h, not_lt.2 hs]

/-- WRITE to an address that selects nothing (R148). -/
theorem writeCommand_nowhere {s : State} {e : Engine} (h : s.inst = .running e) (t : Config.Tables) {addr : Int}
    (value stamp : Int) (ha : addr < 0 ∨ 24 < addr) :
    writeCommand t addr value stamp s = .next (takeError .invalidRegisterAddress s) := by
  simp [writeCommand, h, registerAt_none.2 ha]

/-- Everything a WRITE that answers a next state can have done (R105). -/
theorem writeCommand_next {t : Config.Tables} {addr value stamp : Int} {s u : State}
    (h : writeCommand t addr value stamp s = .next u) :
    ∃ e, s.inst = .running e ∧
      (((addr < 0 ∨ 24 < addr) ∧ u = takeError .invalidRegisterAddress s) ∨
        ∃ a : RegAddr, addr = (a.val : Int) ∧ stamp ≤ cycleMax t ∧ queueIsFull t e = false ∧
          u = finish s (scheduleWrite a value stamp e) okResponse) := by
  obtain ⟨e, he, hk⟩ := onRunning_next h
  refine ⟨e, he, ?_⟩
  split at hk
  · rename_i hr
    exact .inl ⟨registerAt_none.1 hr, (Host.Outcome.next.inj hk).symm⟩
  · rename_i a hr
    split at hk
    · cases hk
    · split at hk
      · cases hk
      · rename_i h1 h2
        exact .inr ⟨a, registerAt_some.1 hr, not_lt.1 h1, by simpa using h2, (Host.Outcome.next.inj hk).symm⟩

/-- Everything a READ that answers a next state can have done (R106). -/
theorem readCommand_next {addr : Int} {s u : State} (h : readCommand addr s = .next u) :
    ∃ e, s.inst = .running e ∧
      (((addr < 0 ∨ 24 < addr) ∧ u = takeError .invalidRegisterAddress s) ∨
        ∃ a : RegAddr, addr = (a.val : Int) ∧ u = respond s { status := 0, data := readReg e a, samples := [] }) := by
  obtain ⟨e, he, hk⟩ := onRunning_next h
  refine ⟨e, he, ?_⟩
  split at hk
  · rename_i hr
    exact .inl ⟨registerAt_none.1 hr, (Host.Outcome.next.inj hk).symm⟩
  · rename_i a hr
    exact .inr ⟨a, registerAt_some.1 hr, (Host.Outcome.next.inj hk).symm⟩

/-- Everything a CLOCK that answers a next state can have done (R107). -/
theorem clockCommand_next {t : Config.Tables} {n : Int} {s u : State} (h : clockCommand t n s = .next u) :
    ∃ e e1 ss, s.inst = .running e ∧ e.cyc + max n 0 ≤ cycleMax t ∧ runCycles t n.toNat e = .ok (e1, ss) ∧
      u = finish s e1 { status := 0, data := 0, samples := ss } := by
  obtain ⟨e, he, hk⟩ := onRunning_next h
  split at hk
  · cases hk
  · rename_i h1
    split at hk
    · cases hk
    · rename_i e1 ss h2
      exact ⟨e, e1, ss, he, not_lt.1 h1, h2, (Host.Outcome.next.inj hk).symm⟩

/-- Everything a NEW that answers a next state can have done (R101). -/
theorem execNew_next {model : BitVec 2} {method : BitVec 3} {clk out : Int} {pass : Option Int} {s u : State}
    (h : execNew model method clk out pass s = .next u) :
    s.inst = .unconstructed ∧
      ((∃ m c, modelOfCode model = some m ∧ validSampling method clk out pass = some c ∧ u = finish s (construct m c) okResponse) ∨
        ((modelOfCode model = none ∨ validSampling method clk out pass = none) ∧ u = takeError .invalidSamplingConfig s)) := by
  unfold execNew at h
  split at h
  · cases h
  · rename_i hi
    refine ⟨hi, ?_⟩
    split at h
    · rename_i m c hm hc
      exact .inl ⟨m, c, hm, hc, (Host.Outcome.next.inj h).symm⟩
    · rename_i hno
      refine .inr ⟨?_, (Host.Outcome.next.inj h).symm⟩
      cases hm : modelOfCode model with
      | none => exact .inl rfl
      | some m =>
        cases hc : validSampling method clk out pass with
        | none => exact .inr rfl
        | some c => exact absurd hc (fun h => hno m c hm h)

/-- Everything a SETSAMPLING that answers a next state can have done (R103). -/
theorem execSetSampling_next {method : BitVec 3} {clk out : Int} {pass : Option Int} {s u : State}
    (h : execSetSampling method clk out pass s = .next u) :
    ∃ e, s.inst = .running e ∧
      ((∃ c, validSampling method clk out pass = some c ∧ u = finish s (resamplerReset { e with samp := c }) okResponse) ∨
        (validSampling method clk out pass = none ∧ u = takeError .invalidSamplingConfig s)) := by
  obtain ⟨e, he, hk⟩ := onRunning_next h
  refine ⟨e, he, ?_⟩
  split at hk
  · rename_i hr
    exact .inr ⟨hr, (Host.Outcome.next.inj hk).symm⟩
  · rename_i c hr
    exact .inl ⟨c, hr, (Host.Outcome.next.inj hk).symm⟩

/-- `VALID` of a sampling configuration (R102): which configuration it stores, and when. -/
theorem validSampling_some {method : BitVec 3} {clk out : Int} {pass : Option Int} {c : SamplingConfig} :
    validSampling method clk out pass = some c ↔
      ∃ m, methodOfCode method = some m ∧ 0 < clk ∧ 0 < out ∧
        c = { method := m, clk := clk.toNat, out := out.toNat, pass := pass } := by
  unfold validSampling
  split
  · rename_i h; simp [h]
  · rename_i m h
    simp only [h, Option.some.injEq]
    split
    · rename_i hr
      constructor
      · intro hc; exact ⟨m, rfl, hr.1, hr.2, (Option.some.inj hc).symm⟩
      · rintro ⟨m', rfl, _, _, rfl⟩; rfl
    · rename_i hr
      constructor
      · intro hc; cases hc
      · rintro ⟨_, _, h1, h2, _⟩; exact absurd ⟨h1, h2⟩ hr

/-! ### The queue -/

/-- Where WRITE puts an entry: after every entry with a stamp not above its own, before the rest, all above it (R105). -/
theorem insertPending_split (p : PendingWrite) (q : List PendingWrite) :
    ∃ pre post, q = pre ++ post ∧ insertPending p q = pre ++ p :: post ∧ (∀ x ∈ post, p.stamp < x.stamp) ∧
      (∀ x, pre.getLast? = some x → x.stamp ≤ p.stamp) := by
  induction q with
  | nil => exact ⟨[], [], rfl, rfl, by simp, by simp⟩
  | cons x xs ih =>
    unfold insertPending
    split
    · rename_i hany
      obtain ⟨pre, post, rfl, hins, hpost, hlast⟩ := ih
      refine ⟨x :: pre, post, rfl, by simp [hins], hpost, ?_⟩
      intro y hy
      cases pre with
      | cons z zs => exact hlast y (by simpa using hy)
      | nil =>
        simp only [List.getLast?_singleton, Option.some.injEq] at hy
        subst hy
        simp only [List.nil_append, List.any_cons, Bool.or_eq_true, decide_eq_true_eq, List.any_eq_true] at hany
        rcases hany with h | ⟨z, hz, h⟩
        · exact h
        · exact absurd (hpost z hz) (by omega)
    · rename_i hany
      refine ⟨[], x :: xs, rfl, rfl, ?_, by simp⟩
      intro y hy
      simp only [List.any_eq_true, decide_eq_true_eq, not_exists, not_and] at hany
      exact not_le.1 (hany y hy)

theorem mem_insertPending {p x : PendingWrite} {q : List PendingWrite} : x ∈ insertPending p q ↔ x = p ∨ x ∈ q := by
  obtain ⟨pre, post, hq, hins, -, -⟩ := insertPending_split p q
  rw [hins, hq]
  simp only [List.mem_append, List.mem_cons]
  tauto

/-- Insertion keeps the queue sorted by stamp (R35 (b)). -/
theorem insertPending_sorted {p : PendingWrite} {q : List PendingWrite}
    (h : q.Pairwise (fun x y => x.stamp ≤ y.stamp)) : (insertPending p q).Pairwise (fun x y => x.stamp ≤ y.stamp) := by
  obtain ⟨pre, post, rfl, hins, hpost, hlast⟩ := insertPending_split p q
  rw [hins]
  rw [List.pairwise_append] at h ⊢
  obtain ⟨h1, h2, h3⟩ := h
  have hpre : ∀ x ∈ pre, x.stamp ≤ p.stamp := by
    intro x hx
    rcases List.eq_nil_or_concat pre with rfl | ⟨l, y, rfl⟩
    · simp at hx
    · have hy : y.stamp ≤ p.stamp := hlast y (by simp)
      rw [List.concat_eq_append, List.pairwise_append] at h1
      rcases List.mem_append.1 (by simpa using hx : x ∈ l ++ [y]) with hl | hl
      · exact le_trans (h1.2.2 x hl y (by simp)) hy
      · simp only [List.mem_singleton] at hl; subst hl; exact hy
  refine ⟨h1, List.pairwise_cons.2 ⟨fun y hy => le_of_lt (hpost y hy), h2⟩, ?_⟩
  intro x hx y hy
  rcases List.mem_cons.1 hy with rfl | hy
  · exact hpre x hx
  · exact h3 x hx y hy

/-! ### APPLY_DUE -/

/-- The entries that are due come off the head in order and are applied in order; the rest stays (R262). -/
theorem applyDueFrom_eq (ps : List PendingWrite) (e : Engine) :
    applyDueFrom ps e =
      { (ps.takeWhile (fun p => decide (p.stamp = e.cyc))).foldl (fun x p => applyWrite p.addr p.value x) e with
        wq := ps.dropWhile (fun p => decide (p.stamp = e.cyc)) } := by
  induction ps generalizing e with
  | nil => rfl
  | cons p ps ih =>
    unfold applyDueFrom
    split
    · rename_i h
      rw [ih]
      simp [h]
    · rename_i h
      simp [h]

/-- What a run of applications leaves unchanged (R120). -/
theorem foldl_applyWrite_frame (ps : List PendingWrite) (e : Engine) :
    let e1 := ps.foldl (fun x p => applyWrite p.addr p.value x) e
    e1.model = e.model ∧ e1.samp = e.samp ∧ e1.cyc = e.cyc ∧ e1.diag = e.diag ∧ e1.filter = e.filter ∧
      e1.resampler = e.resampler := by
  induction ps generalizing e with
  | nil => simp
  | cons p ps ih =>
    have h := ih (applyWrite p.addr p.value e)
    simpa using h

theorem applyDue_frame (e : Engine) :
    (applyDue e).model = e.model ∧ (applyDue e).samp = e.samp ∧ (applyDue e).cyc = e.cyc ∧ (applyDue e).diag = e.diag ∧
      (applyDue e).filter = e.filter ∧ (applyDue e).resampler = e.resampler := by
  unfold applyDue
  rw [applyDueFrom_eq]
  exact foldl_applyWrite_frame _ e

theorem foldl_applyWrite_voice_frame (ps : List PendingWrite) (e : Engine) (v : VoiceId) :
    let e1 := ps.foldl (fun x p => applyWrite p.addr p.value x) e
    e1.voices[v].acc = e.voices[v].acc ∧ e1.voices[v].snapMsb = e.voices[v].snapMsb ∧
      e1.voices[v].snapFall = e.voices[v].snapFall ∧ e1.voices[v].env = e.voices[v].env ∧ e1.voices[v].rc = e.voices[v].rc ∧
      e1.voices[v].ec = e.voices[v].ec := by
  induction ps generalizing e with
  | nil => simp
  | cons p ps ih =>
    have h := ih (applyWrite p.addr p.value e)
    have h1 := applyWrite_voice_frame p.addr p.value e v
    simp only [List.foldl_cons]
    refine ⟨h.1.trans h1.1, h.2.1.trans h1.2.1, h.2.2.1.trans h1.2.2.1, h.2.2.2.1.trans h1.2.2.2.1,
      h.2.2.2.2.1.trans h1.2.2.2.2.1, h.2.2.2.2.2.trans h1.2.2.2.2.2⟩

/-- The fields of a voice that APPLY_DUE never changes. -/
theorem applyDue_voice_frame (e : Engine) (v : VoiceId) :
    (applyDue e).voices[v].acc = e.voices[v].acc ∧ (applyDue e).voices[v].snapMsb = e.voices[v].snapMsb ∧
      (applyDue e).voices[v].snapFall = e.voices[v].snapFall ∧ (applyDue e).voices[v].env = e.voices[v].env ∧
      (applyDue e).voices[v].rc = e.voices[v].rc ∧ (applyDue e).voices[v].ec = e.voices[v].ec := by
  unfold applyDue
  rw [applyDueFrom_eq]
  exact foldl_applyWrite_voice_frame _ e v

/-- With no entry due, APPLY_DUE does nothing (R262). -/
theorem applyDue_of_none_due {e : Engine} (h : ∀ p ∈ e.wq, e.cyc < p.stamp) : applyDue e = e := by
  unfold applyDue
  cases hq : e.wq with
  | nil => cases e; simp only at hq; subst hq; rfl
  | cons p ps =>
    have hp := h p (by simp [hq])
    unfold applyDueFrom
    rw [if_neg (by omega)]
    cases e; simp only at hq; subst hq; rfl

/-- APPLY does not see the queue (R120). -/
theorem foldl_applyWrite_queue (ps : List PendingWrite) (e : Engine) (q : List PendingWrite) :
    ps.foldl (fun x p => applyWrite p.addr p.value x) { e with wq := q } =
      { ps.foldl (fun x p => applyWrite p.addr p.value x) e with wq := q } := by
  induction ps generalizing e with
  | nil => rfl
  | cons p ps ih =>
    simp only [List.foldl_cons]
    rw [← ih]
    congr 1
    unfold applyWrite
    dsimp only
    split <;> rfl

/-- With exactly the entries `due` at the head due, APPLY_DUE takes them off and applies them in order (R262). -/
theorem applyDue_of_due {e : Engine} {due rest : List PendingWrite} (hq : e.wq = due ++ rest) (hd : ∀ p ∈ due, p.stamp = e.cyc)
    (hr : ∀ p ∈ rest, e.cyc < p.stamp) :
    applyDue e = due.foldl (fun x p => applyWrite p.addr p.value x) { e with wq := rest } := by
  have hw : (due ++ rest).takeWhile (fun p => decide (p.stamp = e.cyc)) = due ∧
      (due ++ rest).dropWhile (fun p => decide (p.stamp = e.cyc)) = rest := by
    clear hq
    induction due with
    | nil =>
      cases rest with
      | nil => simp
      | cons p ps =>
        have hp : ¬p.stamp = e.cyc := ne_of_gt (hr p (by simp))
        simp [hp]
    | cons p ps ih =>
      have h := ih fun x hx => hd x (by simp [hx])
      simp [hd p (by simp), h.1, h.2]
  unfold applyDue
  rw [applyDueFrom_eq, hq, hw.1, hw.2]
  exact (foldl_applyWrite_queue ..).symm

end Sys2Proof.Machine
end

