-- ==== Sys2Proof/Laws/Configured.lean ====
section
/-! SUPPORT. The machine for every configuration record, and that the machine of Step.lean is the one for `tables`. -/

namespace Sys2Proof.Machine

/-- Under the record `tables` an instruction has the meaning `exec` gives it. -/
theorem execUnder_tables (i : Instr) (s : State) : execUnder tables i s = exec i s := by cases i <;> rfl

/-- Under the record `tables` a step is `step`. -/
theorem stepUnder_tables (s : State) : stepUnder tables s = step s := by
  unfold stepUnder step
  cases fetch s with
  | none => rfl
  | some p => exact execUnder_tables ..

/-- A register form of WRITE is WRITE at its address, under every record (R123 to R147). -/
theorem execUnder_registerWrite {i : Instr} {a : RegAddr} {value stamp : Int} (h : i.registerWrite = some (a, value, stamp))
    (t : Config.Tables) (s : State) : execUnder t i s = writeCommand t a.val value stamp s := by
  cases i <;> simp only [Instr.registerWrite, Option.some.injEq, Prod.mk.injEq, reduceCtorEq] at h <;>
    obtain ⟨rfl, rfl, rfl⟩ := h <;> rfl

end Sys2Proof.Machine
end

