-- ==== Sys2Proof/Laws/History.lean ====
section
/-! SUPPORT. The resampler's history keeps its canonical form and reads as the shifted list of R47 and R263; the convolution is the sum of
R269 and never reads beyond the history; the emission loop is the division of R264 and R273. -/

namespace Sys2Proof.Machine

/-! ### The history -/

/-- Dropping the zeros at the end changes no read. -/
theorem histAt_trimZeros (h : List Sample) (j : Nat) : histAt (trimZeros h) j = histAt h j := by
  induction h generalizing j with
  | nil => rfl
  | cons y ys ih =>
    unfold histAt at ih ⊢
    cases hz : trimZeros ys with
    | nil =>
      have ih' : ∀ k, ys.getD k 0 = 0 := fun k => by rw [← ih k, hz]; rfl
      by_cases hy : y = 0
      · have he : trimZeros (y :: ys) = [] := by simp only [trimZeros, hz]; exact if_pos hy
        rw [he]
        cases j with
        | zero => exact hy.symm
        | succ k => exact (ih' k).symm
      · have he : trimZeros (y :: ys) = [y] := by simp only [trimZeros, hz]; exact if_neg hy
        rw [he]
        cases j with
        | zero => rfl
        | succ k => exact (ih' k).symm
    | cons z zs =>
      cases j with
      | zero => simp [trimZeros, hz]
      | succ k => simpa [trimZeros, hz] using ih k

theorem trimZeros_length_le (h : List Sample) : (trimZeros h).length ≤ h.length := by
  induction h with
  | nil => simp [trimZeros]
  | cons y ys ih =>
    cases hz : trimZeros ys with
    | nil =>
      unfold trimZeros
      rw [hz]
      dsimp only
      split <;> simp
    | cons z zs => rw [hz] at ih; simpa [trimZeros, hz] using ih

theorem trimZeros_getLast? (h : List Sample) : (trimZeros h).getLast? ≠ some 0 := by
  induction h with
  | nil => simp [trimZeros]
  | cons y ys ih =>
    cases hz : trimZeros ys with
    | nil =>
      unfold trimZeros
      rw [hz]
      dsimp only
      split
      · simp
      · rename_i hy; simpa using hy
    | cons z zs => rw [hz] at ih; simpa [trimZeros, hz] using ih

/-- The new history is in canonical form, whatever the old one was. -/
theorem pushHistory_canonical (y : Sample) (h : List Sample) :
    (pushHistory y h).length ≤ Config.ringSize ∧ (pushHistory y h).getLast? ≠ some 0 := by
  refine ⟨le_trans (trimZeros_length_le _) ?_, trimZeros_getLast? _⟩
  rw [List.length_take]
  exact min_le_left _ _

theorem histAt_pushHistory_zero (y : Sample) (h : List Sample) : histAt (pushHistory y h) 0 = y := by
  unfold pushHistory
  rw [histAt_trimZeros]
  rfl

/-- `hist[j+1]` after the push is `hist[j]` before it, inside RINGSIZE (R263). -/
theorem histAt_pushHistory_succ (y : Sample) (h : List Sample) {j : Nat} (hj : j + 1 < Config.ringSize) :
    histAt (pushHistory y h) (j + 1) = histAt h j := by
  unfold pushHistory
  rw [histAt_trimZeros]
  unfold histAt
  rw [List.getD_eq_getElem?_getD, List.getElem?_take]
  rw [if_pos hj]
  simp [List.getD_eq_getElem?_getD]

/-! ### The convolution -/

/-- Inside the history the guarded read is the history's sample (R271). -/
theorem guardedRead_inside (h : List Sample) {j : Nat} (hj : j < Config.ringSize) :
    guardedRead h j = ((histAt h j).toInt, false) := if_pos hj

/-- The convolution is the sum of R269, with no underrun, while every index is inside the history. -/
theorem convolve_eq_sum (k : Nat → Int) (h : List Sample) (d n : Nat) (hn : n + d ≤ Config.ringSize) :
    convolve k h d n = (∑ j ∈ Finset.range n, k j * (histAt h (j + d)).toInt, false) := by
  induction n with
  | zero => rfl
  | succ n ih =>
    unfold convolve
    rw [ih (by omega), guardedRead_inside h (by omega), Finset.sum_range_succ]
    rfl

/-- A kernel fits the history, the delayed row included (R268). -/
theorem kernel_fits (k : Config.Kernel) : k.taps + 1 ≤ Config.ringSize := by
  have := k.tapsPred.isLt
  show k.tapsPred.val + 1 + 1 ≤ 16384
  omega

/-- No sample of a configured kernel is an underrun (R271). -/
theorem sampleAt_no_underrun (t : Config.Tables) (c : SamplingConfig) (h : List Sample) (yPrev y : Sample) (r : Nat) :
    (sampleAt t c h yPrev y r).2 = false := by
  have hk := kernel_fits (t.fir c.method c.clk c.out c.pass)
  unfold sampleAt
  split
  · rfl
  · rfl
  · unfold resampleSample
    simp only [convolve_eq_sum _ h 0 _ (Nat.le_of_succ_le hk)]
    split
    · rfl
    · simp [convolve_eq_sum _ h 1 _ hk]
  · unfold fastmemSample
    simp only [convolve_eq_sum _ h 0 _ (Nat.le_of_succ_le hk)]

/-! ### The emission loop -/

/-- The loop divides: what is left is the remainder, and as many samples as the quotient, if it may turn often enough (R264). -/
theorem emitLoop_div (f : Nat → Sample × Bool) {clk : Nat} (hclk : 0 < clk) (n racc : Nat) (hn : racc / clk ≤ n) :
    (emitLoop f clk n racc).1 = racc % clk ∧ (emitLoop f clk n racc).2.1.length = racc / clk := by
  induction n generalizing racc with
  | zero =>
    have h0 : racc / clk = 0 := Nat.le_zero.1 hn
    have : racc < clk := (Nat.div_eq_zero_iff_lt hclk).1 h0
    exact ⟨(Nat.mod_eq_of_lt this).symm, h0.symm⟩
  | succ n ih =>
    unfold emitLoop
    split
    · rename_i hle
      have hd : racc / clk = (racc - clk) / clk + 1 := Nat.div_eq_sub_div hclk hle
      have h := ih (racc - clk) (by omega)
      refine ⟨?_, ?_⟩
      · rw [Nat.mod_eq_sub_mod hle]; exact h.1
      · simp only [List.length_cons, h.2, hd]
    · rename_i hle
      have hlt : racc < clk := not_le.1 hle
      exact ⟨(Nat.mod_eq_of_lt hlt).symm, (Nat.div_eq_of_lt hlt).symm⟩

/-- The loop reports an underrun only where a sample does. -/
theorem emitLoop_no_underrun (f : Nat → Sample × Bool) (hf : ∀ r, (f r).2 = false) (clk n racc : Nat) :
    (emitLoop f clk n racc).2.2 = false := by
  induction n generalizing racc with
  | zero => rfl
  | succ n ih =>
    unfold emitLoop
    split
    · simp [hf, ih]
    · rfl

end Sys2Proof.Machine
end

