-- ==== Sys2Proof/Laws/Cycle.lean ====
section
/-! SUPPORT. What one cycle step, and a run of them, can do, said once. -/

namespace Sys2Proof.Machine

/-- Voice `v` after the oscillator stage (R160). -/
theorem oscillators_voice (t : Config.Tables) (e : Engine) (v : VoiceId) :
    (oscillators t e).voices[v] = (oscillateVoice t e v).1 := by simp [oscillators]

/-- Voice `v` after the envelope stage (R190). -/
theorem envelopes_voice (t : Config.Tables) (e : Engine) (v : VoiceId) :
    (envelopes t e).voices[v] = envelopeVoice t e.reg v e.voices[v] := by simp [envelopes]

/-- Voice `v` after both stages (R261). -/
theorem voiceStages_voice (t : Config.Tables) (e : Engine) (v : VoiceId) :
    (voiceStages t e).voices[v] = envelopeVoice t e.reg v (oscillateVoice t e v).1 := by
  unfold voiceStages
  rw [envelopes_voice, oscillators_voice, oscillators_reg]

/-- The envelope stage leaves the oscillator's part of a voice alone. -/
theorem envelopeVoice_frame (t : Config.Tables) (r : RegFile) (v : VoiceId) (x : Voice) :
    (envelopeVoice t r v x).acc = x.acc ∧ (envelopeVoice t r v x).sr = x.sr ∧ (envelopeVoice t r v x).snapMsb = x.snapMsb ∧
      (envelopeVoice t r v x).snapFall = x.snapFall := by
  have hd : ∀ y : Voice, (decayStep t r v y).acc = y.acc ∧ (decayStep t r v y).sr = y.sr ∧ (decayStep t r v y).snapMsb = y.snapMsb ∧
      (decayStep t r v y).snapFall = y.snapFall := by
    intro y; unfold decayStep; split <;> exact ⟨rfl, rfl, rfl, rfl⟩
  unfold envelopeVoice
  dsimp only
  split
  · split
    · exact ⟨rfl, rfl, rfl, rfl⟩
    · exact hd _
    · exact hd _
  · exact ⟨rfl, rfl, rfl, rfl⟩

/-- The oscillator stage leaves the envelope's part of a voice alone. -/
theorem oscillateVoice_frame (t : Config.Tables) (e : Engine) (v : VoiceId) :
    (oscillateVoice t e v).1.envState = e.voices[v].envState ∧ (oscillateVoice t e v).1.env = e.voices[v].env ∧
      (oscillateVoice t e v).1.rc = e.voices[v].rc ∧ (oscillateVoice t e v).1.ec = e.voices[v].ec := ⟨rfl, rfl, rfl, rfl⟩

/-- The resampler stage in closed form: no underrun, so only the resampler's own state changes (R263 to R272). -/
theorem resampleStep_eq (t : Config.Tables) (e : Engine) (y : Sample) :
    resampleStep t e y =
      (let h := pushHistory y e.resampler.hist
       let racc := e.resampler.racc + e.samp.out
       let res := emitLoop (sampleAt t e.samp h e.resampler.yPrev y) e.samp.clk (racc / e.samp.clk) racc
       ({ e with resampler := { racc := res.1, yPrev := y, hist := h } }, res.2.1)) := by
  unfold resampleStep
  dsimp only
  rw [emitLoop_no_underrun _ (fun r => sampleAt_no_underrun ..)]
  rfl

/-- Everything a cycle step that completes has done (R261): the filter stayed in range, and the engine is the pipeline's, resampled, one
cycle on, with the writes that fall due applied. -/
theorem cycle_ok {t : Config.Tables} {e e1 : Engine} {ss : List Sample} (h : cycle t e = .ok (e1, ss)) :
    filterInRange (filtered t e) = true ∧
      e1 = applyDue { (resampleStep t (pipeline t e).1 (pipeline t e).2).1 with cyc := e.cyc + 1 } ∧
      ss = (resampleStep t (pipeline t e).1 (pipeline t e).2).2 := by
  unfold cycle at h
  split at h
  · rename_i hf
    have h1 := Prod.mk.inj (Except.ok.inj h)
    refine ⟨hf, ?_, h1.2.symm⟩
    rw [← h1.1]
    simp
  · cases h

/-- When a cycle step completes (R249). -/
theorem cycle_of_inRange {t : Config.Tables} {e : Engine} (h : filterInRange (filtered t e) = true) :
    cycle t e =
      .ok (applyDue { (resampleStep t (pipeline t e).1 (pipeline t e).2).1 with cyc := e.cyc + 1 },
        (resampleStep t (pipeline t e).1 (pipeline t e).2).2) := by
  unfold cycle
  rw [if_pos h]
  simp

theorem cycle_of_not_inRange {t : Config.Tables} {e : Engine} (h : filterInRange (filtered t e) = false) :
    cycle t e = .error .filterOverflow := by
  unfold cycle
  rw [if_neg (by simp [h])]

/-- What a cycle step never changes, and the counter (R34, R36, R52). -/
theorem cycle_frame {t : Config.Tables} {e e1 : Engine} {ss : List Sample} (h : cycle t e = .ok (e1, ss)) :
    e1.model = e.model ∧ e1.samp = e.samp ∧ e1.cyc = e.cyc + 1 ∧ e1.diag = e.diag ∧ e1.filter = filtered t e := by
  obtain ⟨-, rfl, -⟩ := cycle_ok h
  have hf := applyDue_frame { (resampleStep t (pipeline t e).1 (pipeline t e).2).1 with cyc := e.cyc + 1 }
  obtain ⟨h1, h2, h3, h4, h5, -⟩ := hf
  rw [h1, h2, h3, h4, h5]
  refine ⟨by simp, by simp, rfl, ?_, by simp⟩
  rw [resampleStep_eq]
  simp

/-- A run of `n + 1` steps is one step and a run of `n` (R107). -/
theorem runCycles_succ_ok {t : Config.Tables} {n : Nat} {e e2 : Engine} {ss : List Sample}
    (h : runCycles t (n + 1) e = .ok (e2, ss)) :
    ∃ e1 ss1 ss2, cycle t e = .ok (e1, ss1) ∧ runCycles t n e1 = .ok (e2, ss2) ∧ ss = ss1 ++ ss2 := by
  unfold runCycles at h
  split at h
  · cases h
  · rename_i e1 ss1 h1
    split at h
    · cases h
    · rename_i e2' ss2 h2
      have h3 := Prod.mk.inj (Except.ok.inj h)
      obtain ⟨rfl, rfl⟩ := h3
      exact ⟨e1, ss1, ss2, h1, h2, rfl⟩

/-- A run of `n + 1` steps is a run of `n` and one step more (R107). -/
theorem runCycles_succ_last {t : Config.Tables} {n : Nat} {e e2 : Engine} {ss : List Sample}
    (h : runCycles t (n + 1) e = .ok (e2, ss)) :
    ∃ e1 ss1 ss2, runCycles t n e = .ok (e1, ss1) ∧ cycle t e1 = .ok (e2, ss2) ∧ ss = ss1 ++ ss2 := by
  induction n generalizing e ss with
  | zero =>
    obtain ⟨e1, s1, s2, hc, hr, rfl⟩ := runCycles_succ_ok h
    unfold runCycles at hr
    obtain ⟨rfl, rfl⟩ := Prod.mk.inj (Except.ok.inj hr)
    exact ⟨e, [], s1, rfl, hc, by simp⟩
  | succ n ih =>
    obtain ⟨e1, s1, s2, hc, hr, rfl⟩ := runCycles_succ_ok h
    obtain ⟨e3, s3, s4, h3, h4, rfl⟩ := ih hr
    refine ⟨e3, s1 ++ s3, s4, ?_, h4, by simp⟩
    unfold runCycles
    rw [hc]
    dsimp only
    rw [h3]

/-- A run and one step more are a run (R107). -/
theorem runCycles_snoc {t : Config.Tables} {n : Nat} {e e1 e2 : Engine} {ss1 ss2 : List Sample}
    (h1 : runCycles t n e = .ok (e1, ss1)) (h2 : cycle t e1 = .ok (e2, ss2)) :
    runCycles t (n + 1) e = .ok (e2, ss1 ++ ss2) := by
  induction n generalizing e ss1 with
  | zero =>
    unfold runCycles at h1
    obtain ⟨rfl, rfl⟩ := Prod.mk.inj (Except.ok.inj h1)
    unfold runCycles
    rw [h2]
    simp [runCycles]
  | succ n ih =>
    obtain ⟨e3, s3, s4, hc, hr, rfl⟩ := runCycles_succ_ok h1
    unfold runCycles
    rw [hc]
    dsimp only
    rw [ih hr]
    simp

/-- While no entry falls due, the pipeline does not see the queue, and the registers stay (R262). -/
theorem cycle_of_queue {t : Config.Tables} {e e1 : Engine} {ss : List Sample} (h : cycle t e = .ok (e1, ss)) (q : List PendingWrite)
    (he : ∀ p ∈ e.wq, e.cyc + 1 < p.stamp) (hq : ∀ p ∈ q, e.cyc + 1 < p.stamp) :
    cycle t { e with wq := q } = .ok ({ e1 with wq := q }, ss) ∧ e1.reg = e.reg ∧ e1.wq = e.wq := by
  obtain ⟨hf, rfl, rfl⟩ := cycle_ok h
  rw [cycle_of_inRange (e := { e with wq := q }) hf, applyDue_of_none_due (by rw [resampleStep_eq]; simpa using hq),
    applyDue_of_none_due (by rw [resampleStep_eq]; simpa using he), resampleStep_eq, resampleStep_eq]
  exact ⟨rfl, by simp, by simp⟩

/-- The step in which the head `due` of the queue falls due: the step without those entries, then their application in order (R262). -/
theorem cycle_of_due {t : Config.Tables} {e e1 : Engine} {ss : List Sample} {due rest : List PendingWrite}
    (h : cycle t e = .ok (e1, ss)) (hq : e.wq = due ++ rest) (hd : ∀ p ∈ due, p.stamp = e.cyc + 1)
    (hr : ∀ p ∈ rest, e.cyc + 1 < p.stamp) :
    ∃ e0, cycle t { e with wq := rest } = .ok (e0, ss) ∧ e0.reg = e.reg ∧ e0.wq = rest ∧ e0.cyc = e.cyc + 1 ∧
      e1 = due.foldl (fun x p => applyWrite p.addr p.value x) e0 := by
  obtain ⟨hf, rfl, rfl⟩ := cycle_ok h
  refine ⟨_, cycle_of_inRange (e := { e with wq := rest }) hf, ?_⟩
  rw [applyDue_of_none_due (by rw [resampleStep_eq]; simpa using hr)]
  refine ⟨by rw [resampleStep_eq]; simp, by rw [resampleStep_eq]; simp, rfl, ?_⟩
  have hw : (resampleStep t (pipeline t e).1 (pipeline t e).2).1.wq = due ++ rest := by rw [resampleStep_eq]; simp [hq]
  rw [applyDue_of_due (e := { (resampleStep t (pipeline t e).1 (pipeline t e).2).1 with cyc := e.cyc + 1 }) hw hd hr]
  rw [resampleStep_eq, resampleStep_eq]
  rfl

end Sys2Proof.Machine
end

