-- ==== Sys2Proof/Laws/Encoding.lean ====
section
/-! SUPPORT. The fields of a word assembled by each format, and the word reassembled from its fields (R82). -/

namespace Sys2Proof

/-- A field of a concatenation is a field of its high or of its low part. -/
theorem field_of_append {m n : Nat} (x : BitVec m) (y : BitVec n) (lo k : Nat) :
    (x ++ y).extractLsb' (n + lo) k = x.extractLsb' lo k ∧ (lo + k ≤ n → (x ++ y).extractLsb' lo k = y.extractLsb' lo k) := by
  constructor
  · apply BitVec.eq_of_getLsbD_eq
    intro i hi
    simp only [BitVec.getLsbD_extractLsb', BitVec.getLsbD_append]
    rw [if_neg (by omega)]
    congr 2
    omega
  · intro h
    apply BitVec.eq_of_getLsbD_eq
    intro i hi
    simp only [BitVec.getLsbD_extractLsb', BitVec.getLsbD_append]
    rw [if_pos (by omega)]

theorem field_all {n : Nat} (x : BitVec n) : x.extractLsb' 0 n = x := by simp

/-- Two fields that touch are one field. -/
theorem append_fields (w : CmdWord) (lo m n : Nat) : cwField w (lo + n) m ++ cwField w lo n = cwField w lo (m + n) := by
  unfold cwField
  apply BitVec.eq_of_getLsbD_eq
  intro i hi
  simp only [BitVec.getLsbD_extractLsb', BitVec.getLsbD_append]
  split
  · rename_i h
    simp [h, hi]
  · rename_i h
    have h1 : i - n < m := by omega
    simp only [h1, hi, decide_true, Bool.true_and]
    congr 1
    omega

/-- Formats N and S: the four operand fields, and the fields that must be 0. -/
theorem fields_format_n (op : BitVec 4) (model : BitVec 2) (method : BitVec 3) (pben : BitVec 1) (clk out pass : BitVec 32) (w : CmdWord)
    (h : w = op ++ model ++ method ++ pben ++ 0#22 ++ clk ++ out ++ pass) :
    cwField w 124 4 = op ∧ cwField w 122 2 = model ∧ cwField w 119 3 = method ∧ cwField w 118 1 = pben ∧ cwField w 96 22 = 0#22 ∧
      cwField w 64 32 = clk ∧ cwField w 32 32 = out ∧ cwField w 0 32 = pass := by
  subst h
  unfold cwField
  refine ⟨?_, ?_, ?_, ?_, ?_, ?_, ?_, ?_⟩
  · rw [(field_of_append _ pass 92 4).1, (field_of_append _ out 60 4).1, (field_of_append _ clk 28 4).1,
      (field_of_append _ 0#22 6 4).1, (field_of_append _ pben 5 4).1, (field_of_append _ method 2 4).1,
      (field_of_append _ model 0 4).1, field_all]
  · rw [(field_of_append _ pass 90 2).1, (field_of_append _ out 58 2).1, (field_of_append _ clk 26 2).1,
      (field_of_append _ 0#22 4 2).1, (field_of_append _ pben 3 2).1, (field_of_append _ method 0 2).1,
      (field_of_append _ model 0 2).2 (by omega), field_all]
  · rw [(field_of_append _ pass 87 3).1, (field_of_append _ out 55 3).1, (field_of_append _ clk 23 3).1,
      (field_of_append _ 0#22 1 3).1, (field_of_append _ pben 0 3).1, (field_of_append _ method 0 3).2 (by omega), field_all]
  · rw [(field_of_append _ pass 86 1).1, (field_of_append _ out 54 1).1, (field_of_append _ clk 22 1).1,
      (field_of_append _ 0#22 0 1).1, (field_of_append _ pben 0 1).2 (by omega), field_all]
  · rw [(field_of_append _ pass 64 22).1, (field_of_append _ out 32 22).1, (field_of_append _ clk 0 22).1,
      (field_of_append _ 0#22 0 22).2 (by omega), field_all]
  · rw [(field_of_append _ pass 32 32).1, (field_of_append _ out 0 32).1, (field_of_append _ clk 0 32).2 (by omega), field_all]
  · rw [(field_of_append _ pass 0 32).1, (field_of_append _ out 0 32).2 (by omega), field_all]
  · rw [(field_of_append _ pass 0 32).2 (by omega), field_all]

/-- Format W. -/
theorem fields_format_w (a : BitVec 8) (d : BitVec 24) (t : BitVec 64) (w : CmdWord) (h : w = 3#4 ++ a ++ d ++ 0#28 ++ t) :
    cwField w 124 4 = 3#4 ∧ cwField w 116 8 = a ∧ cwField w 92 24 = d ∧ cwField w 64 28 = 0#28 ∧ cwField w 0 64 = t := by
  subst h
  unfold cwField
  refine ⟨?_, ?_, ?_, ?_, ?_⟩
  · rw [(field_of_append _ t 60 4).1, (field_of_append _ 0#28 32 4).1, (field_of_append _ d 8 4).1,
      (field_of_append _ a 0 4).1, field_all]
  · rw [(field_of_append _ t 52 8).1, (field_of_append _ 0#28 24 8).1, (field_of_append _ d 0 8).1,
      (field_of_append _ a 0 8).2 (by omega), field_all]
  · rw [(field_of_append _ t 28 24).1, (field_of_append _ 0#28 0 24).1, (field_of_append _ d 0 24).2 (by omega), field_all]
  · rw [(field_of_append _ t 0 28).1, (field_of_append _ 0#28 0 28).2 (by omega), field_all]
  · rw [(field_of_append _ t 0 64).2 (by omega), field_all]

/-- Format R. -/
theorem fields_format_r (a : BitVec 8) (w : CmdWord) (h : w = 4#4 ++ a ++ 0#116) :
    cwField w 124 4 = 4#4 ∧ cwField w 116 8 = a ∧ cwField w 0 116 = 0#116 := by
  subst h
  unfold cwField
  refine ⟨?_, ?_, ?_⟩
  · rw [(field_of_append _ 0#116 8 4).1, (field_of_append _ a 0 4).1, field_all]
  · rw [(field_of_append _ 0#116 0 8).1, (field_of_append _ a 0 8).2 (by omega), field_all]
  · rw [(field_of_append _ 0#116 0 116).2 (by omega), field_all]

/-- Format K. -/
theorem fields_format_k (n : BitVec 64) (w : CmdWord) (h : w = 5#4 ++ 0#60 ++ n) :
    cwField w 124 4 = 5#4 ∧ cwField w 64 60 = 0#60 ∧ cwField w 0 64 = n := by
  subst h
  unfold cwField
  refine ⟨?_, ?_, ?_⟩
  · rw [(field_of_append _ n 60 4).1, (field_of_append _ 0#60 0 4).1, field_all]
  · rw [(field_of_append _ n 0 60).1, (field_of_append _ 0#60 0 60).2 (by omega), field_all]
  · rw [(field_of_append _ n 0 64).2 (by omega), field_all]

end Sys2Proof
end

