-- ==== Sys2Proof/Laws/PerInstr.lean ====
section
/-! SUPPORT. A statement about every instruction as syntax, proved constructor by constructor: where its opcode stands in its word. -/

namespace Sys2Proof.Laws

/-- The opcode `OP` of the command an instruction is (R81); a reserved word has none of its own. -/
def opcodeOf : Instr → Option (BitVec 4)
  | .new _ _ _ _ _ => some 0
  | .setSampling _ _ _ _ => some 1
  | .reset => some 2
  | .writeFreqLo1 _ _ => some 3
  | .writeFreqHi1 _ _ => some 3
  | .writePwLo1 _ _ => some 3
  | .writePwHi1 _ _ => some 3
  | .writeControl1 _ _ => some 3
  | .writeAttackDecay1 _ _ => some 3
  | .writeSustainRelease1 _ _ => some 3
  | .writeFreqLo2 _ _ => some 3
  | .writeFreqHi2 _ _ => some 3
  | .writePwLo2 _ _ => some 3
  | .writePwHi2 _ _ => some 3
  | .writeControl2 _ _ => some 3
  | .writeAttackDecay2 _ _ => some 3
  | .writeSustainRelease2 _ _ => some 3
  | .writeFreqLo3 _ _ => some 3
  | .writeFreqHi3 _ _ => some 3
  | .writePwLo3 _ _ => some 3
  | .writePwHi3 _ _ => some 3
  | .writeControl3 _ _ => some 3
  | .writeAttackDecay3 _ _ => some 3
  | .writeSustainRelease3 _ _ => some 3
  | .writeFcLo _ _ => some 3
  | .writeFcHi _ _ => some 3
  | .writeResFilt _ _ => some 3
  | .writeModeVol _ _ => some 3
  | .writeOutOfRange _ _ _ => some 3
  | .read _ => some 4
  | .readOutOfRange _ => some 4
  | .clock _ => some 5
  | .reserved _ => none

/-- Bits 127:124 of the instruction's word are the opcode of its command (R81, R82). -/
def EncodedOpcode.Statement (i : Instr) : Prop := ∀ op, opcodeOf i = some op → (encode i).extractLsb' 124 4 = op

theorem opcode_format_w (addr value stamp : Int) : (encodeWrite addr value stamp).extractLsb' 124 4 = 3#4 := by
  unfold encodeWrite
  apply BitVec.eq_of_getLsbD_eq
  intro i hi
  simp only [BitVec.getLsbD_extractLsb', BitVec.getLsbD_append]
  interval_cases i <;> simp

theorem opcode_format_r (addr : Int) : (encodeRead addr).extractLsb' 124 4 = 4#4 := by
  unfold encodeRead
  apply BitVec.eq_of_getLsbD_eq
  intro i hi
  simp only [BitVec.getLsbD_extractLsb', BitVec.getLsbD_append]
  interval_cases i <;> simp

theorem EncodedOpcode.new (model : BitVec 2) (method : BitVec 3) (clk out : Int) (pass : Option Int) :
    EncodedOpcode.Statement (.new model method clk out pass) := by
  intro op h
  obtain rfl := Option.some.inj h
  unfold encode
  apply BitVec.eq_of_getLsbD_eq
  intro i hi
  simp only [BitVec.getLsbD_extractLsb', BitVec.getLsbD_append]
  interval_cases i <;> simp

theorem EncodedOpcode.setSampling (method : BitVec 3) (clk out : Int) (pass : Option Int) :
    EncodedOpcode.Statement (.setSampling method clk out pass) := by
  intro op h
  obtain rfl := Option.some.inj h
  unfold encode
  apply BitVec.eq_of_getLsbD_eq
  intro i hi
  simp only [BitVec.getLsbD_extractLsb', BitVec.getLsbD_append]
  interval_cases i <;> simp

theorem EncodedOpcode.reset : EncodedOpcode.Statement .reset := by
  intro op h
  obtain rfl := Option.some.inj h
  decide

theorem EncodedOpcode.writeFreqLo1 (value stamp : Int) : EncodedOpcode.Statement (.writeFreqLo1 value stamp) :=
  fun _ h => (opcode_format_w _ _ _).trans (Option.some.inj h)

theorem EncodedOpcode.writeFreqHi1 (value stamp : Int) : EncodedOpcode.Statement (.writeFreqHi1 value stamp) :=
  fun _ h => (opcode_format_w _ _ _).trans (Option.some.inj h)

theorem EncodedOpcode.writePwLo1 (value stamp : Int) : EncodedOpcode.Statement (.writePwLo1 value stamp) :=
  fun _ h => (opcode_format_w _ _ _).trans (Option.some.inj h)

theorem EncodedOpcode.writePwHi1 (value stamp : Int) : EncodedOpcode.Statement (.writePwHi1 value stamp) :=
  fun _ h => (opcode_format_w _ _ _).trans (Option.some.inj h)

theorem EncodedOpcode.writeControl1 (value stamp : Int) : EncodedOpcode.Statement (.writeControl1 value stamp) :=
  fun _ h => (opcode_format_w _ _ _).trans (Option.some.inj h)

theorem EncodedOpcode.writeAttackDecay1 (value stamp : Int) : EncodedOpcode.Statement (.writeAttackDecay1 value stamp) :=
  fun _ h => (opcode_format_w _ _ _).trans (Option.some.inj h)

theorem EncodedOpcode.writeSustainRelease1 (value stamp : Int) : EncodedOpcode.Statement (.writeSustainRelease1 value stamp) :=
  fun _ h => (opcode_format_w _ _ _).trans (Option.some.inj h)

theorem EncodedOpcode.writeFreqLo2 (value stamp : Int) : EncodedOpcode.Statement (.writeFreqLo2 value stamp) :=
  fun _ h => (opcode_format_w _ _ _).trans (Option.some.inj h)

theorem EncodedOpcode.writeFreqHi2 (value stamp : Int) : EncodedOpcode.Statement (.writeFreqHi2 value stamp) :=
  fun _ h => (opcode_format_w _ _ _).trans (Option.some.inj h)

theorem EncodedOpcode.writePwLo2 (value stamp : Int) : EncodedOpcode.Statement (.writePwLo2 value stamp) :=
  fun _ h => (opcode_format_w _ _ _).trans (Option.some.inj h)

theorem EncodedOpcode.writePwHi2 (value stamp : Int) : EncodedOpcode.Statement (.writePwHi2 value stamp) :=
  fun _ h => (opcode_format_w _ _ _).trans (Option.some.inj h)

theorem EncodedOpcode.writeControl2 (value stamp : Int) : EncodedOpcode.Statement (.writeControl2 value stamp) :=
  fun _ h => (opcode_format_w _ _ _).trans (Option.some.inj h)

theorem EncodedOpcode.writeAttackDecay2 (value stamp : Int) : EncodedOpcode.Statement (.writeAttackDecay2 value stamp) :=
  fun _ h => (opcode_format_w _ _ _).trans (Option.some.inj h)

theorem EncodedOpcode.writeSustainRelease2 (value stamp : Int) : EncodedOpcode.Statement (.writeSustainRelease2 value stamp) :=
  fun _ h => (opcode_format_w _ _ _).trans (Option.some.inj h)

theorem EncodedOpcode.writeFreqLo3 (value stamp : Int) : EncodedOpcode.Statement (.writeFreqLo3 value stamp) :=
  fun _ h => (opcode_format_w _ _ _).trans (Option.some.inj h)

theorem EncodedOpcode.writeFreqHi3 (value stamp : Int) : EncodedOpcode.Statement (.writeFreqHi3 value stamp) :=
  fun _ h => (opcode_format_w _ _ _).trans (Option.some.inj h)

theorem EncodedOpcode.writePwLo3 (value stamp : Int) : EncodedOpcode.Statement (.writePwLo3 value stamp) :=
  fun _ h => (opcode_format_w _ _ _).trans (Option.some.inj h)

theorem EncodedOpcode.writePwHi3 (value stamp : Int) : EncodedOpcode.Statement (.writePwHi3 value stamp) :=
  fun _ h => (opcode_format_w _ _ _).trans (Option.some.inj h)

theorem EncodedOpcode.writeControl3 (value stamp : Int) : EncodedOpcode.Statement (.writeControl3 value stamp) :=
  fun _ h => (opcode_format_w _ _ _).trans (Option.some.inj h)

theorem EncodedOpcode.writeAttackDecay3 (value stamp : Int) : EncodedOpcode.Statement (.writeAttackDecay3 value stamp) :=
  fun _ h => (opcode_format_w _ _ _).trans (Option.some.inj h)

theorem EncodedOpcode.writeSustainRelease3 (value stamp : Int) : EncodedOpcode.Statement (.writeSustainRelease3 value stamp) :=
  fun _ h => (opcode_format_w _ _ _).trans (Option.some.inj h)

theorem EncodedOpcode.writeFcLo (value stamp : Int) : EncodedOpcode.Statement (.writeFcLo value stamp) :=
  fun _ h => (opcode_format_w _ _ _).trans (Option.some.inj h)

theorem EncodedOpcode.writeFcHi (value stamp : Int) : EncodedOpcode.Statement (.writeFcHi value stamp) :=
  fun _ h => (opcode_format_w _ _ _).trans (Option.some.inj h)

theorem EncodedOpcode.writeResFilt (value stamp : Int) : EncodedOpcode.Statement (.writeResFilt value stamp) :=
  fun _ h => (opcode_format_w _ _ _).trans (Option.some.inj h)

theorem EncodedOpcode.writeModeVol (value stamp : Int) : EncodedOpcode.Statement (.writeModeVol value stamp) :=
  fun _ h => (opcode_format_w _ _ _).trans (Option.some.inj h)

theorem EncodedOpcode.writeOutOfRange (addr value stamp : Int) : EncodedOpcode.Statement (.writeOutOfRange addr value stamp) :=
  fun _ h => (opcode_format_w _ _ _).trans (Option.some.inj h)

theorem EncodedOpcode.read (addr : Int) : EncodedOpcode.Statement (.read addr) :=
  fun _ h => (opcode_format_r _).trans (Option.some.inj h)

theorem EncodedOpcode.readOutOfRange (addr : Int) : EncodedOpcode.Statement (.readOutOfRange addr) :=
  fun _ h => (opcode_format_r _).trans (Option.some.inj h)

theorem EncodedOpcode.clock (n : Int) : EncodedOpcode.Statement (.clock n) := by
  intro op h
  obtain rfl := Option.some.inj h
  unfold encode
  apply BitVec.eq_of_getLsbD_eq
  intro i hi
  simp only [BitVec.getLsbD_extractLsb', BitVec.getLsbD_append]
  interval_cases i <;> simp

theorem EncodedOpcode.reserved (w : CmdWord) : EncodedOpcode.Statement (.reserved w) := fun _ h => nomatch h

end Sys2Proof.Laws
end

