-- ==== Sys2Proof/Tests/Slice0.lean ====
section
/-! SUPPORT. Tests. Expected values come from spec/95_test_vectors.md (the vector is named) or are worked by hand from the rule named. The
vectors use the spec's test configuration `T0`, which is `testTables` here. The witnesses at the end show, for every statement with
hypotheses, a state and operands that meet them. -/

open Sys2Proof Sys2Proof.Machine

namespace Sys2Proof.Tests

-- One test after the other: each `decide +kernel` waits for the kernel, and a waiting theorem holds a thread.
set_option Elab.async false

/-! ### Well-formedness: one ill-formed term for each check -/

/-- `CLK`, `OUT` and `PASS` are signed 32-bit fields, in formats N and S (R82). -/
theorem test_wf_refuses_wide_rates :
    (Instr.new 0 0 (2 ^ 31) 1 none).wf = false ∧ (Instr.new 0 0 1 (-2 ^ 31 - 1) none).wf = false ∧
      (Instr.new 0 0 1 1 (some (2 ^ 31))).wf = false ∧ (Instr.setSampling 0 (2 ^ 31) 1 none).wf = false ∧
      (Instr.setSampling 0 1 (-2 ^ 31 - 1) none).wf = false ∧ (Instr.setSampling 0 1 1 (some (2 ^ 31))).wf = false := by decide +kernel

/-- `DATA` is unsigned 24-bit and `AT` signed 64-bit, in each of the 25 register forms (R82). -/
theorem test_wf_refuses_wide_writes :
    ∀ f ∈ [Instr.writeFreqLo1, Instr.writeFreqHi1, Instr.writePwLo1, Instr.writePwHi1, Instr.writeControl1,
      Instr.writeAttackDecay1, Instr.writeSustainRelease1, Instr.writeFreqLo2, Instr.writeFreqHi2, Instr.writePwLo2,
      Instr.writePwHi2, Instr.writeControl2, Instr.writeAttackDecay2, Instr.writeSustainRelease2, Instr.writeFreqLo3,
      Instr.writeFreqHi3, Instr.writePwLo3, Instr.writePwHi3, Instr.writeControl3, Instr.writeAttackDecay3,
      Instr.writeSustainRelease3, Instr.writeFcLo, Instr.writeFcHi, Instr.writeResFilt, Instr.writeModeVol],
      (f (2 ^ 24) 0).wf = false ∧ (f (-1) 0).wf = false ∧ (f 0 (2 ^ 63)).wf = false ∧ (f 0 (-2 ^ 63 - 1)).wf = false := by decide +kernel

/-- The address is the row's (R87), `N` is signed 64-bit, a reserved word is one (R89). -/
theorem test_wf_refuses_the_rest :
    (Instr.writeOutOfRange 24 0 0).wf = false ∧ (Instr.writeOutOfRange 256 0 0).wf = false ∧
      (Instr.writeOutOfRange 25 (2 ^ 24) 0).wf = false ∧ (Instr.read 25).wf = false ∧ (Instr.read (-1)).wf = false ∧
      (Instr.readOutOfRange 24).wf = false ∧ (Instr.readOutOfRange 256).wf = false ∧ (Instr.clock (2 ^ 63)).wf = false ∧
      (Instr.clock (-2 ^ 63 - 1)).wf = false ∧ (Instr.reserved 0#128).wf = false := by decide +kernel

/-! ### Decoding: words of the spec -/

/-- L1.1: one WRITE word for each register. -/
theorem test_decode_register_writes :
    decode 0x3005AF0C300000000000000000000000#128 = .writeFreqLo1 0x5AF0C3 0 ∧
      decode 0x301B5E18600000000000000000000000#128 = .writeFreqHi1 0xB5E186 0 ∧
      decode 0x30210D24900000000000000000000000#128 = .writePwLo1 0x10D249 0 ∧
      decode 0x3036BC30C00000000000000000000000#128 = .writePwHi1 0x6BC30C 0 ∧
      decode 0x304C6B3CF00000000000000000000000#128 = .writeControl1 0xC6B3CF 0 ∧
      decode 0x30521A49200000000000000000000000#128 = .writeAttackDecay1 0x21A492 0 ∧
      decode 0x3067C955500000000000000000000000#128 = .writeSustainRelease1 0x7C9555 0 ∧
      decode 0x307D7861800000000000000000000000#128 = .writeFreqLo2 0xD78618 0 ∧
      decode 0x3083276DB00000000000000000000000#128 = .writeFreqHi2 0x3276DB 0 ∧
      decode 0x3098D679E00000000000000000000000#128 = .writePwLo2 0x8D679E 0 ∧
      decode 0x30AE8586100000000000000000000000#128 = .writePwHi2 0xE85861 0 ∧
      decode 0x30B43492400000000000000000000000#128 = .writeControl2 0x434924 0 ∧
      decode 0x30C9E39E700000000000000000000000#128 = .writeAttackDecay2 0x9E39E7 0 ∧
      decode 0x30DF92AAA00000000000000000000000#128 = .writeSustainRelease2 0xF92AAA 0 ∧
      decode 0x30E541B6D00000000000000000000000#128 = .writeFreqLo3 0x541B6D 0 ∧
      decode 0x30FAF0C3000000000000000000000000#128 = .writeFreqHi3 0xAF0C30 0 ∧
      decode 0x31009FCF300000000000000000000000#128 = .writePwLo3 0x09FCF3 0 ∧
      decode 0x31164EDB600000000000000000000000#128 = .writePwHi3 0x64EDB6 0 ∧
      decode 0x312BFDE7900000000000000000000000#128 = .writeControl3 0xBFDE79 0 ∧
      decode 0x3131ACF3C00000000000000000000000#128 = .writeAttackDecay3 0x1ACF3C 0 ∧
      decode 0x31475BFFF00000000000000000000000#128 = .writeSustainRelease3 0x75BFFF 0 ∧
      decode 0x315D0B0C200000000000000000000000#128 = .writeFcLo 0xD0B0C2 0 ∧
      decode 0x3162BA18500000000000000000000000#128 = .writeFcHi 0x2BA185 0 ∧
      decode 0x31786924800000000000000000000000#128 = .writeResFilt 0x869248 0 ∧
      decode 0x318E1830B00000000000000000000000#128 = .writeModeVol 0xE1830B 0 := by decide +kernel

/-- L1.1: the READ word of each register. -/
theorem test_decode_reads :
    [0x40000000000000000000000000000000#128, 0x40100000000000000000000000000000#128, 0x40200000000000000000000000000000#128,
      0x40300000000000000000000000000000#128, 0x40400000000000000000000000000000#128, 0x40500000000000000000000000000000#128,
      0x40600000000000000000000000000000#128, 0x40700000000000000000000000000000#128, 0x40800000000000000000000000000000#128,
      0x40900000000000000000000000000000#128, 0x40A00000000000000000000000000000#128, 0x40B00000000000000000000000000000#128,
      0x40C00000000000000000000000000000#128, 0x40D00000000000000000000000000000#128, 0x40E00000000000000000000000000000#128,
      0x40F00000000000000000000000000000#128, 0x41000000000000000000000000000000#128, 0x41100000000000000000000000000000#128,
      0x41200000000000000000000000000000#128, 0x41300000000000000000000000000000#128, 0x41400000000000000000000000000000#128,
      0x41500000000000000000000000000000#128, 0x41600000000000000000000000000000#128, 0x41700000000000000000000000000000#128,
      0x41800000000000000000000000000000#128].map decode =
      (List.range 25).map (fun a => Instr.read a) := by decide +kernel

/-- V2.1: the other rows. -/
theorem test_decode_other_commands :
    decode 0x00800000000000020000000500000000#128 = .new 0 1 2 5 none ∧
      decode 0x05400000000F08A00000BB8000004E20#128 = .new 1 2 985248 48000 (some 20000) ∧
      decode 0x10800000000F08A00000BB8000000000#128 = .setSampling 1 985248 48000 none ∧
      decode 0x20000000000000000000000000000000#128 = .reset ∧
      decode 0x31800000100000007FFFFFFFFFFFFFFF#128 = .writeModeVol 1 9223372036854775807 ∧
      decode 0x3190000FF00000000000000000000000#128 = .writeOutOfRange 25 0xFF 0 ∧
      decode 0x4FF00000000000000000000000000000#128 = .readOutOfRange 255 ∧
      decode 0x500000000000000000000000000F08A0#128 = .clock 985248 := by decide +kernel

/-- V2.2: sixteen reserved words. -/
theorem test_decode_reserved_words :
    ([0x60000000000000000000000000000000#128, 0xFFFFFFFFFFFFFFFFFFFFFFFFFFFFFFFF#128, 0xA0000000000000000000000000000005#128,
      0x20000000000000000000000000000001#128, 0x28000000000000000000000000000000#128, 0x00000000000F08A00000AC4400000001#128,
      0x00000001000F08A00000AC4400000000#128, 0x00200000000F08A00000AC4400000000#128, 0x14800000000F08A00000BB8000000000#128,
      0x10800000000F08A00000BB8000004E20#128, 0x31800000F00000010000000000000000#128, 0x31800000F80000000000000000000000#128,
      0x41800000100000000000000000000000#128, 0x41800000000000000000000000000001#128, 0x50000000000000010000000000000001#128,
      0x58000000000000000000000000000001#128] : List CmdWord).all (fun w => decode w = .reserved w) = true := by decide +kernel

/-- The words written from the formats are the words the encoder gives (R82). -/
theorem test_encode_words :
    encode (.new 1 2 985248 48000 (some 20000)) = 0x05400000000F08A00000BB8000004E20#128 ∧
      encode (.setSampling 3 1000000 22050 (some 9000)) = 0x11C00000000F42400000562200002328#128 ∧
      encode (.writePwHi2 0xAB 7) = 0x30A0000AB00000000000000000000007#128 ∧
      encode (.writeFreqLo1 0 (-1)) = 0x3000000000000000FFFFFFFFFFFFFFFF#128 ∧
      encode (.clock (-5)) = 0x5000000000000000FFFFFFFFFFFFFFFB#128 := by decide +kernel

/-! ### Helpers -/

/-- `T0` of spec/95_test_vectors.md section 0. -/
def testTables : Config.Tables where
  ratePeriod := ratePeriod
  expPeriod := expPeriod
  sustainLevel := sustainLevel
  comb := fun _ => combAnd
  waveDac := fun _ w => w
  envDac := fun _ x => x
  waveZero := fun _ => 0x800
  voiceDc := fun _ => 0
  mixerDc := fun _ => 0
  w0 := fun m fc => match m with | .mos6581 => 1449 + 50 * fc.toNat | .mos8580 => 40 * fc.toNat
  invQ := fun _ => invQDefault
  dist6581 := fun x => clamp x (-8192) 8191
  extIn := 0
  fir := fun _ _ _ _ =>
    { tapsPred := 4, phasesPred := 3, shift := 15
      weight := fun p j =>
        match j with
        | 1 => 2048 * (4 - p)
        | 2 => 2048 * (8 - p)
        | 3 => 2048 * (4 + p)
        | 4 => 2048 * p
        | _ => 0 }
  cycleBits := 64
  wqDepth := none

/-- A power-on engine with `clk = 2`, `out = 5`. -/
def fresh (m : ChipModel) (method : SamplingMethod) : Engine :=
  construct m { method := method, clk := 2, out := 5, pass := none }

/-- The state of a host that has a running engine and nothing under way. -/
def hosted (e : Engine) : State := { inbox := [], inst := .running e, response := none }

/-- The state before NEW. -/
def bare : State := State.reset

/-- The command answered a next state. -/
def completes (o : Host.Outcome State Fault Refusal) : Bool :=
  match o with
  | .next _ => true
  | .fault _ => false
  | .refused _ => false

/-- `f` of the running engine a command leaves. -/
def after {α : Type} (o : Host.Outcome State Fault Refusal) (f : Engine → α) : Option α :=
  match o with
  | .next t => (match t.inst with | .running e => some (f e) | .unconstructed => none)
  | .fault _ => none
  | .refused _ => none

/-- The response of a command that completes. -/
def answer (o : Host.Outcome State Fault Refusal) : Option Response :=
  match o with
  | .next t => t.response
  | .fault _ => none
  | .refused _ => none

/-- The engine with some registers set. -/
def poke (e : Engine) (rs : List (RegAddr × Byte)) : Engine := rs.foldl (fun x p => writeReg x p.1 p.2) e

/-! ### Commands -/

/-- L1.1: each register reads back its value masked. -/
theorem test_read_back :
    [(0, 0x5AF0C3), (1, 0xB5E186), (2, 0x10D249), (3, 0x6BC30C), (4, 0xC6B3CF), (5, 0x21A492), (6, 0x7C9555), (7, 0xD78618),
      (8, 0x3276DB), (9, 0x8D679E), (10, 0xE85861), (11, 0x434924), (12, 0x9E39E7), (13, 0xF92AAA), (14, 0x541B6D), (15,
      0xAF0C30), (16, 0x09FCF3), (17, 0x64EDB6), (18, 0xBFDE79), (19, 0x1ACF3C), (20, 0x75BFFF), (21, 0xD0B0C2), (22,
      0x2BA185), (23, 0x869248), (24, 0xE1830B)].map
        (fun p : RegAddr × Int => answer (readCommand p.1.val (hosted (scheduleWrite p.1 p.2 0 (fresh .mos6581 .fast))))) =
      [0xC3, 0x86, 0x49, 0x0C, 0xCF, 0x92, 0x55, 0x18, 0xDB, 0x9E, 0x01, 0x24, 0xE7, 0xAA, 0x6D, 0x30, 0xF3, 0x06, 0x79, 0x3C,
      0xFF, 0x02, 0x85, 0x48, 0x0B].map
        (fun d => some { status := 0, data := d, samples := [] }) := by decide +kernel

/-- L1.2: an out-of-range WRITE in the past changes nothing and raises no flag (R297 (b)). -/
theorem test_write_out_of_range :
    after (exec (.writeOutOfRange 255 0xFFFFFF (-3)) (hosted (fresh .mos6581 .fast))) id = some (fresh .mos6581 .fast) := by decide +kernel

/-- V2.4.2: five writes in this order of issue stand in the queue in this order. -/
theorem test_queue_order :
    (([(5, 24, 1), (3, 24, 2), (5, 24, 3), (3, 23, 0xF7), (4, 24, 4)] : List (Int × RegAddr × Int)).foldl
        (fun e p => scheduleWrite p.2.1 p.2.2 p.1 e) (fresh .mos6581 .fast)).wq =
      [⟨3, 24, 2⟩, ⟨3, 23, 0xF7⟩, ⟨4, 24, 4⟩, ⟨5, 24, 1⟩, ⟨5, 24, 3⟩] := by decide +kernel

/-- V2.4.3: a stamp below `cyc` is clamped and flagged; a stamp equal to it is not. -/
theorem test_past_stamp :
    after (exec (.writeModeVol 9 2) (hosted { fresh .mos6581 .fast with cyc := 5 })) (fun e => (e.reg[24], e.diag.nmw, e.wq)) =
        some (0x09, true, []) ∧
      after (exec (.writeModeVol 7 5) (hosted { fresh .mos6581 .fast with cyc := 5 })) (fun e => (e.reg[24], e.diag.nmw, e.wq)) =
        some (0x07, false, []) := by decide +kernel

/-- V2.5.3: gate and test edges of voice 2, from register value to register value. -/
theorem test_control_edges :
    ([(0x10, 0x11), (0x41, 0x40), (0x49, 0x01), (0x09, 0x08), (0x08, 0x00), (0x11, 0x41)] : List (Byte × Int)).map
        (fun p =>
          let e := applyWrite 11 p.2 (modifyVoice (poke (fresh .mos6581 .fast) [(11, p.1)]) 1 fun x =>
            { x with sr := 0x123456, envState := .decaySustain })
          (e.voices[1].envState, e.voices[1].sr)) =
      [(.attack, 0x123456), (.release, 0x123456), (.decaySustain, 0x7FFFF8), (.release, 0x123456), (.decaySustain, 0x7FFFF8),
        (.decaySustain, 0x123456)] := by decide +kernel

/-- V2.3: status 3 and no engine for every bad configuration; a valid corner configuration constructs one. -/
theorem test_new_validation :
    (([0x00000000000000000000AC4400000000#128, 0x00000000000F08A00000000000000000#128, 0x00000000FFF0F7600000AC4400000000#128,
        0x00000000000F08A0FFFFFFFF00000000#128, 0x08000000000F08A00000AC4400000000#128, 0x0C000000000F08A00000AC4400000000#128,
        0x02000000000F08A00000AC4400000000#128, 0x07800000000F08A00000AC4400000000#128, 0x0F800000000000000000000000000000#128] : List CmdWord).all fun w =>
      answer (exec (decode w) bare) = some { status := 3, data := 0, samples := [] } ∧ after (exec (decode w) bare) id = none) = true ∧
      after (exec (decode 0x05400000000F08A00000BB80FFFFFFF9#128) bare) (fun e => (e.model, e.samp)) =
        some (.mos8580, ⟨.resample, 985248, 48000, some (-7)⟩) := by decide +kernel

/-- V2.3: SETSAMPLING restarts the resampler and nothing else; a bad one changes nothing. -/
theorem test_set_sampling :
    let e := { fresh .mos6581 .fast with cyc := 100, resampler := { racc := 1, yPrev := -194, hist := [-194, -178] } }
    after (exec (.setSampling 1 985248 48000 none) (hosted e)) id =
        some { e with samp := ⟨.interpolate, 985248, 48000, none⟩, resampler := resamplerPowerOn } ∧
      after (exec (.setSampling 5 985248 44100 none) (hosted e)) id = some e ∧
      answer (exec (.setSampling 1 985248 (-48000) none) (hosted e)) = some { status := 3, data := 0, samples := [] } := by decide +kernel

/-- V2.4.3, V2.12: RESET empties the queue and the registers and keeps `cyc` and the flag. -/
theorem test_reset :
    let e := poke { fresh .mos6581 .fast with cyc := 5, diag := ⟨true, false⟩, wq := [⟨9, 24, 3⟩] } [(24, 0x0F)]
    after (exec .reset (hosted e)) (fun x => (x.cyc, x.diag, x.wq, x.reg[24])) = some (5, ⟨true, false⟩, [], 0) := by decide +kernel

/-- V2.2, R109: a reserved word is accepted in both instance states; a second NEW is not. -/
theorem test_reserved_and_second_new :
    answer (exec (.reserved 0x60000000000000000000000000000000#128) bare) = some { status := 5, data := 0, samples := [] } ∧
      completes (exec (.new 0 0 1 1 none) (hosted (fresh .mos6581 .fast))) = false ∧ completes (exec .reset bare) = false := by decide +kernel

/-! ### The cycle step -/

/-- V2.7.2: the accumulator wraps and its top bit falls. -/
theorem test_accumulator_wraps :
    let e := modifyVoice (poke (fresh .mos6581 .fast) [(1, 0x02)]) 0 fun x => { x with acc := 0xFFFF00 }
    let x := (oscillateVoice testTables e 0).1
    (x.acc, x.snapMsb, x.snapFall) = (0x000100, false, true) := by decide +kernel

/-- L1.4: the step after the source's fall resets the synced voice in place of the addition. -/
theorem test_hard_sync :
    let e := modifyVoice (modifyVoice (poke (fresh .mos6581 .fast) [(8, 0x10), (11, 0x22)]) 0 fun x => { x with snapFall := true }) 1
      fun x => { x with acc := 0x800000 }
    let x := (oscillateVoice testTables e 1).1
    (x.acc, x.snapFall) = (0, true) := by decide +kernel

/-- V2.7.3: TRI, TRI with RING, SAW and PULSE at four accumulator values, the source's snapshot bit set. -/
theorem test_waveforms :
    [0x000800, 0x7FF800, 0x800800, 0xC00000].map (fun acc : BitVec 24 =>
        [0x10, 0x14, 0x20, 0x40, 0x00].map fun c : Byte =>
          waveforms testTables (modifyVoice (modifyVoice (poke (fresh .mos6581 .fast) [(3, 0x08), (4, c)]) 0 fun x =>
            { x with acc := acc }) 2 fun x => { x with snapMsb := true }) 0) =
      [[0x001, 0xFFE, 0x000, 0x000, 0x000], [0xFFF, 0x000, 0x7FF, 0x000, 0x000], [0xFFE, 0x001, 0x800, 0xFFF, 0x000],
        [0x7FF, 0x800, 0xC00, 0xFFF, 0x000]] := by decide +kernel

/-- V2.7.7: combined waveforms and the noise write-back at `acc = 0xA5A000`. -/
theorem test_combined_waveforms :
    [0x30, 0x50, 0x60, 0x70, 0x90, 0xF0].map (fun c : Byte =>
        let r := oscillateVoice testTables (modifyVoice (poke (fresh .mos6581 .fast) [(3, 0x08), (4, c)]) 0 fun x =>
          { x with acc := 0xA5A000 }) 0
        (r.2, r.1.sr)) =
      [(0xA4A, 0x7FFFF8), (0xB4B, 0x7FFFF8), (0xA5A, 0x7FFFF8), (0xA4A, 0x7FFFF8), (0xB40, 0x6FF7E8), (0xA40, 0x6FD7E8)] := by decide +kernel

/-- V2.7.5: the register shifts when bit 19 rises, and the output follows it. -/
theorem test_noise :
    (let r := oscillateVoice testTables (modifyVoice (poke (fresh .mos6581 .fast) [(1, 0x80), (4, 0x80)]) 0 fun x =>
        { x with acc := 0x178000, sr := 0x7FFFF0 }) 0;
      (r.1.sr, r.2)) = (0x7FFFE0, 0xFC0) ∧
      (oscillateVoice testTables (poke (fresh .mos6581 .fast) [(1, 0xFF), (2, 0xFF), (3, 0x0F), (4, 0xC0)]) 0).1.sr = 0x2ED768 :=
  by decide +kernel

/-- R194, V2.8.4: the rate counter wraps from 0x7FFF to 1, and matches only on equality. -/
theorem test_rate_counter :
    let r := (fresh .mos6581 .fast).reg
    (envelopeVoice testTables r 0 { voicePowerOn with rc := 0x7FFF }).rc = 1 ∧ (envelopeVoice testTables r 0 { voicePowerOn with rc := 100 }).rc = 101 ∧
      (envelopeVoice testTables r 0 { voicePowerOn with rc := 8 }).rc = 0 := by decide +kernel

/-- R196, R198, R199, V2.8.2, V2.8.6: one level step of each stage. -/
theorem test_envelope_steps :
    let r := (poke (fresh .mos6581 .fast) [(6, 0x80)]).reg
    let f := (fun (st : EnvState) (env : BitVec 8) (ec : Nat) =>
      let y := envelopeVoice testTables r 0 { voicePowerOn with envState := st, env := env, rc := 8, ec := ec }
      (y.envState, y.env, y.ec))
    f .attack 0xFE 3 = (.decaySustain, 0xFF, 0) ∧ f .attack 0xFF 0 = (.decaySustain, 0xFF, 0) ∧
      f .decaySustain 0x88 0 = (.decaySustain, 0x88, 0) ∧ f .decaySustain 0x80 0 = (.decaySustain, 0x7F, 0) ∧
      f .release 0x5D 0 = (.release, 0x5D, 1) ∧ f .release 0x5D 1 = (.release, 0x5C, 0) ∧ f .release 1 29 = (.release, 0, 0) ∧
      f .release 0 0 = (.release, 0, 0) := by decide +kernel

/-- V2.9: the cycle sample under nine settings of `RES_FILT` and `MODE_VOL`. -/
theorem test_mixer_rows :
    ([(0x00, 0x0F), (0x01, 0x0F), (0x07, 0x0F), (0x00, 0x8F), (0x04, 0x8F), (0x04, 0x4F), (0x0F, 0x0F), (0x02, 0x08), (0x00, 0x00)] :
        List (Byte × Byte)).map (fun p =>
      let e := poke (fresh .mos6581 .fast) [(4, 0x20), (11, 0x20), (18, 0x20), (23, p.1), (24, p.2)]
      let e := modifyVoice e 0 fun x => { x with acc := 0xFFF000, env := 255 }
      let e := modifyVoice e 1 fun x => { x with env := 255 }
      let e := modifyVoice e 2 fun x => { x with acc := 0xC00000, env := 100 }
      (pipeline testTables e).2.toInt) = [1088, -4473, 0, -3, -3, -1094, 0, 3547, 0] := by decide +kernel

/-- V2.10.1: one state update of the filter, and the cycle sample. -/
theorem test_filter_update :
    let e := poke (fresh .mos6581 .fast) [(4, 0x20), (22, 0x80), (23, 0x01), (24, 0x1F)]
    let e := modifyVoice { e with filter := ⟨1000, -500, 200⟩ } 0 fun x => { x with acc := 0x92C000, env := 128 }
    (mixed testTables e, filtered testTables e, (pipeline testTables e).2.toInt) = ((300, 0), ⟨-1304, -550, 226⟩, 308) := by decide +kernel

/-- V2.10.4, R248: the output clamp and the floor. -/
theorem test_output_level :
    (outputLevel 40000 15, outputLevel (-40000) 15, outputLevel (-1) 1, outputLevel 4078 15) = (32767, -32768, -1, 5560) := by decide +kernel

/-- V2.11.1, step 23: the four methods on the ramp. -/
theorem test_sample_methods :
    [SamplingMethod.fast, .interpolate, .resample, .resampleFastmem].map (fun m =>
      (sampleAt testTables ⟨m, 985248, 44100, none⟩ [2300, 2200, 2100, 2000, 1900] 2200 2300 29052).1.toInt) =
      [2200, 2234, 2034, 2050] := by decide +kernel

/-- V2.11.3, step 2: three samples in one cycle step, in order of falling `r`, and the accumulator left. -/
theorem test_emission_order :
    [SamplingMethod.fast, .interpolate, .resample, .resampleFastmem].map (fun m =>
      let r := resampleStep testTables { fresh .mos6581 m with resampler := ⟨1, 1000, [1000]⟩, samp := ⟨m, 2, 5, none⟩ } 2000
      (r.1.resampler.racc, r.2.map BitVec.toInt)) =
      [(0, [1000, 2000, 2000]), (0, [1200, 1600, 2000]), (0, [50, 150, 250]), (0, [62, 187, 250])] := by decide +kernel

/-- V2.4.1: a queued write is applied at the end of the step that brings `cyc` to its stamp. -/
theorem test_due_write :
    (match cycle testTables { fresh .mos8580 .fast with cyc := 9, wq := [⟨10, 24, 0x0F⟩, ⟨11, 24, 1⟩] } with
      | .ok (e, _) => some (e.cyc, e.reg[24], e.wq)
      | .error _ => none) = some (10, 0x0F, [⟨11, 24, 1⟩]) := by decide +kernel

/-- R107 (b), R249: a negative count runs nothing; a filter state beyond 32 bits faults. -/
theorem test_clock_edges :
    after (exec (.clock (-5)) (hosted (fresh .mos6581 .fast))) id = some (fresh .mos6581 .fast) ∧
      (match cycle testTables { fresh .mos8580 .fast with filter := ⟨0, 2 ^ 31 - 1, 0⟩ } with
        | .ok _ => false
        | .error .filterOverflow => true) = true := by decide +kernel

/-- A word placed on the fresh machine is the next instruction: NEW constructs, CLOCK 1 runs one step (log entry 3). -/
theorem test_placed_words :
    after (step (State.reset.withFetchWord 128 0x00000000000F08A00000AC4400000000)) (fun e => e.cyc) = some 0 ∧
      after (step (State.reset.withFetchWord 128 0x30400001100000000000000000000000)) (fun e => e.voices[0].envState) =
        some .attack := by decide +kernel

/-! ### Witnesses -/

/-- The state a CLOCK on the hosted engine `e` reaches; the state itself if it reaches none. -/
def reached (n : Int) (e : Engine) : State :=
  match exec (.clock n) (hosted e) with
  | .next t => t
  | .fault _ => hosted e
  | .refused _ => hosted e

/-- The running engine of a state, `e` if there is none. -/
def engineOf (s : State) (e : Engine) : Engine :=
  match s.inst with
  | .running x => x
  | .unconstructed => e

/-- The samples of a state's response. -/
def samplesOf (s : State) : List Sample :=
  match s.response with
  | some r => r.samples
  | none => []

/-- A CLOCK that completes meets the three hypotheses every statement about a CLOCK has. -/
theorem clock_meets (n : Int) (e : Engine) (h : completes (exec (.clock n) (hosted e)) = true) :
    exec (.clock n) (hosted e) = .next (reached n e) ∧ (reached n e).inst = .running (engineOf (reached n e) e) ∧
      (reached n e).response = some { status := 0, data := 0, samples := samplesOf (reached n e) } := by
  have hr : exec (.clock n) (hosted e) = .next (reached n e) := by
    unfold reached
    cases hx : exec (.clock n) (hosted e) with
    | next t => rfl
    | fault f => rw [hx] at h; cases h
    | refused r => rw [hx] at h; cases h
  refine ⟨hr, ?_⟩
  obtain ⟨_, e1, ss, _, _, _, ht⟩ := clockCommand_next ((exec_clock n (hosted e)).symm.trans hr)
  rw [ht]
  exact ⟨rfl, rfl⟩

/-- A power-on MOS8580 engine, method FAST. -/
def e8 : Engine := fresh .mos8580 .fast

/-- `e8` with voice 1 poked. -/
def voiced (rs : List (RegAddr × Byte)) (f : Voice → Voice) : Engine := modifyVoice (poke e8 rs) 0 f

theorem witness_DecodeInvertsEncode :
    ([.new 3 7 (-2 ^ 31) (2 ^ 31 - 1) (some (-1)), .setSampling 0 0 0 none, .reset, .writeFreqLo1 (2 ^ 24 - 1) (2 ^ 63 - 1),
      .writeModeVol 0 (-2 ^ 63), .writeOutOfRange 25 0 0, .writeOutOfRange 255 0 0, .read 0, .read 24, .readOutOfRange 255,
      .clock (2 ^ 63 - 1), .clock (-2 ^ 63), .reserved (6#4 ++ 0#124)] : List Instr).all Instr.wf = true := by decide +kernel

theorem witness_StepExecutesTheDecodedCommand :
    ({ bare with inbox := [0x20000000000000000000000000000000#128] } : State).inbox = 0x20000000000000000000000000000000#128 :: [] ∧
      bare.inbox = [] := by decide

theorem witness_PlacedWordRunsNext :
    (hosted e8).inst = .running e8 ∧ (decode (tableWord 128 0x20000000000000000000000000000000)).mnemonic ≠ "NEW" ∧
      bare.inst = .unconstructed ∧ (decode (tableWord 128 0)).mnemonic = "NEW" := by
  refine ⟨rfl, by decide +kernel, rfl, by decide +kernel⟩

theorem witness_DueRegisterWriteStores :
    ((Instr.writePwHi1 0xABC 0).registerWrite = some (3, 0xABC, 0) ∧ (3 : RegAddr).val ≠ 4 ∧ (3 : RegAddr).val ≠ 11 ∧
        (3 : RegAddr).val ≠ 18 ∧ (hosted e8).inst = .running e8 ∧ (0 : Int) = e8.cyc ∧ (0 : Int) ≤ 9223372036854775807) ∧
      ((Instr.writeModeVol (-1) 9223372036854775807).registerWrite = some (24, -1, 9223372036854775807) ∧
        (hosted { e8 with cyc := 9223372036854775807 }).inst = .running { e8 with cyc := 9223372036854775807 }) := by
  refine ⟨⟨rfl, ?_⟩, rfl, rfl⟩
  decide +kernel

theorem witness_DueControlWriteMovesItsVoice :
    (Instr.writeControl3 0x11 0).registerWrite = some (18, 0x11, 0) ∧ (18 : RegAddr).val = 7 * (2 : VoiceId).val + 4 ∧
      (hosted e8).inst = .running e8 ∧ (0 : Int) = e8.cyc ∧ (0 : Int) ≤ 9223372036854775807 ∧ (0 : Byte) = e8.reg[18] ∧
      (0x11 : Byte) = BitVec.ofNat 8 ((0x11 : Int) % 256).toNat ∧ voicePowerOn = e8.voices[2] := by
  refine ⟨rfl, ?_⟩
  decide +kernel

theorem witness_FutureWriteIsQueued :
    ((Instr.writeFcLo 1 1).registerWrite = some (21, 1, 1) ∧ (hosted e8).inst = .running e8 ∧ e8.cyc < 1) ∧
      (Instr.writeFcLo 1 9223372036854775807).registerWrite = some (21, 1, 9223372036854775807) ∧
      (9223372036854775807 : Int) ≤ 9223372036854775807 := by
  refine ⟨⟨rfl, rfl, ?_⟩, rfl, ?_⟩ <;> decide +kernel

theorem witness_PastWriteIsClampedAndFlagged :
    (Instr.writeFcLo 1 (-1)).registerWrite = some (21, 1, -1) ∧ (Instr.writeFcLo 1 0).registerWrite = some (21, 1, e8.cyc) ∧
      (hosted e8).inst = .running e8 ∧ -1 < e8.cyc ∧ e8.cyc ≤ 9223372036854775807 := by
  refine ⟨rfl, rfl, rfl, ?_⟩
  decide +kernel

theorem witness_OutOfRangeAddressDoesNothing :
    (hosted e8).inst = .running e8 ∧ ((25 : Int) < 0 ∨ 24 < (25 : Int)) ∧ ((-1 : Int) < 0 ∨ 24 < (-1 : Int)) := by
  refine ⟨rfl, ?_⟩
  decide

/-- R93: the halves of a 12-bit pulse width and of an 11-bit cutoff. -/
theorem test_pseudo_commands :
    wrFreq 0 0x1D45#16 0 = [.writeFreqLo1 0x45 0, .writeFreqHi1 0x1D 0] ∧ wrPw 1 0x8FF#12 3 = [.writePwLo2 0xFF 3, .writePwHi2 8 3] ∧
      wrFc 0x7FD#11 9 = [.writeFcLo 5 9, .writeFcHi 0xFF 9] := by decide +kernel

theorem witness_PseudoCommandsSetTheirField :
    (hosted e8).inst = .running e8 ∧ e8.cyc ≤ 9223372036854775807 ∧
      (∃ (v : VoiceId) (y : BitVec 16), wrFreq 2 0xFFFF#16 e8.cyc = wrFreq v y e8.cyc ∧ (14 : RegAddr).val = 7 * v.val ∧
        (fun r => (freq r 2).toNat) = (fun r => (freq r v).toNat) ∧ 65535 = y.toNat) ∧
      (∃ (v : VoiceId) (y : BitVec 12), wrPw 0 0xFFF#12 e8.cyc = wrPw v y e8.cyc ∧ (2 : RegAddr).val = 7 * v.val + 2 ∧
        (fun r => (pulseWidth r 0).toNat) = (fun r => (pulseWidth r v).toNat) ∧ 4095 = y.toNat) ∧
      ∃ y : BitVec 11, wrFc 0x7FF#11 e8.cyc = wrFc y e8.cyc ∧ (21 : RegAddr).val = 21 ∧ 2047 = y.toNat :=
  ⟨rfl, by decide +kernel, ⟨2, 0xFFFF#16, rfl, rfl, rfl, rfl⟩, ⟨0, 0xFFF#12, rfl, rfl, rfl, rfl⟩, ⟨0x7FF#11, rfl, rfl, rfl⟩⟩

theorem witness_BeyondCycleMaxIsRefused :
    (hosted e8).inst = .running e8 ∧ cycleMax tables < e8.cyc + max (2 ^ 63) 0 ∧
      (Instr.writeFreqLo1 0 (2 ^ 63)).registerWrite = some (0, 0, 2 ^ 63) ∧ cycleMax tables < 2 ^ 63 := by
  refine ⟨rfl, ?_, rfl, ?_⟩ <;> decide +kernel

theorem witness_FullQueueRefusesAWrite :
    ({ testTables with wqDepth := some 1 } : Config.Tables).wqDepth = some 1 ∧
      (hosted { e8 with wq := [⟨9, 24, 3⟩] }).inst = .running { e8 with wq := [⟨9, 24, 3⟩] } ∧
      (0 : Int) ≤ 2 ^ (testTables.cycleBits - 1) - 1 ∧ 1 ≤ ({ e8 with wq := [⟨9, 24, 3⟩] } : Engine).wq.length ∧
      (hosted e8).inst = .running e8 ∧ e8.wq.length < 1 := by
  refine ⟨rfl, rfl, ?_, ?_, rfl, ?_⟩ <;> decide +kernel

theorem witness_ReadReturnsTheRegister :
    (hosted e8).inst = .running e8 ∧ (24 : RegAddr).val = 24 ∧ ((25 : Int) < 0 ∨ 24 < (25 : Int)) ∧ ((-1 : Int) < 0 ∨ 24 < (-1 : Int)) := by
  refine ⟨rfl, ?_⟩
  decide

theorem witness_WrittenRegisterReadsBack :
    (Instr.writePwHi2 0xAB (-1)).registerWrite = some (10, 0xAB, -1) ∧ (hosted e8).inst = .running e8 ∧ -1 ≤ e8.cyc ∧
      e8.cyc ≤ 9223372036854775807 := by
  refine ⟨rfl, rfl, ?_⟩
  decide +kernel

theorem witness_RepeatedDueWriteChangesNothing :
    (Instr.writeControl2 0x81 0).registerWrite = some (11, 0x81, 0) ∧ (hosted e8).inst = .running e8 ∧ 0 ≤ e8.cyc ∧
      ∃ t, exec (.writeControl2 0x81 0) (hosted e8) = .next t := by
  refine ⟨rfl, rfl, ?_, _, writeCommand_register (s := hosted e8) rfl 11 0x81 0 ?_⟩ <;> decide +kernel

theorem witness_ApplyStoresAndActsOnEdges :
    (0x0B : Byte) = (BitVec.ofNat 8 ((0x1AB : Int) % 256).toNat &&&
      (if (3 : RegAddr).val = 3 ∨ (3 : RegAddr).val = 10 ∨ (3 : RegAddr).val = 17 then 0x0F#8
        else if (3 : RegAddr).val = 21 then 0x07#8 else 0xFF#8)) := by decide +kernel

theorem witness_NewConstructsThePowerOnEngine :
    bare.inst = .unconstructed ∧ (1 : BitVec 2).toNat < 2 ∧ (3 : BitVec 3).toNat < 4 ∧ (0 : Int) < 1 ∧ (0 : Int) < 1 := by
  refine ⟨rfl, ?_⟩
  decide

theorem witness_ResetRestoresPowerOn : (hosted e8).inst = .running e8 := rfl

theorem witness_SetSamplingResetsTheResamplerOnly :
    (hosted e8).inst = .running e8 ∧ (3 : BitVec 3).toNat < 4 ∧ (0 : Int) < 1 ∧ (0 : Int) < 1 := by
  refine ⟨rfl, ?_⟩
  decide

theorem witness_InvalidConfigurationChangesNothing :
    bare.inst = .unconstructed ∧ 2 ≤ (2 : BitVec 2).toNat ∧ 4 ≤ (4 : BitVec 3).toNat ∧ (0 : Int) ≤ 0 ∧ (-1 : Int) ≤ 0 ∧
      (hosted e8).inst = .running e8 := by
  refine ⟨rfl, ?_, ?_, ?_, ?_, rfl⟩ <;> decide

theorem witness_CommandsNeedTheirInstanceState :
    bare.inst = .unconstructed ∧ Instr.reset.mnemonic ≠ "NEW" ∧ Instr.reset.mnemonic ≠ "RESERVED" ∧
      (hosted e8).inst = .running e8 ∧ (Instr.new 0 0 1 1 none).mnemonic = "NEW" := by
  refine ⟨rfl, ?_, ?_, rfl, rfl⟩ <;> decide

theorem witness_ResponsesHaveTheirShape :
    (∃ t, exec .reset (hosted e8) = .next t) ∧ (∃ t, exec (.reserved 0) bare = .next t) ∧
      ∃ t, exec (.new 3 0 1 1 none) bare = .next t := ⟨⟨_, rfl⟩, ⟨_, rfl⟩, ⟨_, rfl⟩⟩

theorem witness_ClockOfNothingRunsNothing :
    (hosted e8).inst = .running e8 ∧ (0 : Int) ≤ 0 ∧ (-1 : Int) ≤ 0 ∧ e8.cyc ≤ 9223372036854775807 := by
  refine ⟨rfl, ?_⟩
  decide +kernel

theorem witness_ClockCompletesOnAnIdleFilter :
    (hosted e8).inst = .running e8 ∧ e8.wq = [] ∧ e8.filter = { vhp := 0, vbp := 0, vlp := 0 } ∧
      (∀ v : VoiceId, e8.reg[23].getLsbD v.val = false) ∧ e8.cyc + max (9223372036854775807 : Int) 0 ≤ 9223372036854775807 := by
  refine ⟨rfl, rfl, rfl, ?_, ?_⟩ <;> decide +kernel

/-- In range: the power-on filter. Out of range: `Vbp` at the top of the range makes `Vhp` leave it, whatever `W0` is. -/
theorem witness_CycleStepFaultsExactlyOnFilterOverflow :
    (hosted e8).inst = .running e8 ∧ e8.cyc < 9223372036854775807 ∧
      (∀ w0 : Int, ∀ x ∈ [((0 - w0 * 0 / 2 ^ 20) * 1448) / 2 ^ 10 - (0 - w0 * 0 / 2 ^ 20) - 0, 0 - w0 * 0 / 2 ^ 20,
        0 - w0 * 0 / 2 ^ 20], -2 ^ 31 ≤ x ∧ x ≤ 2 ^ 31 - 1) ∧
      (mixed tables { e8 with filter := ⟨0, 2 ^ 31 - 1, 0⟩ }).1 = 0 ∧
      ∀ w0 : Int, 0 ≤ w0 →
        2 ^ 31 - 1 < ((2 ^ 31 - 1 - w0 * 0 / 2 ^ 20) * (15360000 / (10605 + 1000 * 0))) / 2 ^ 10 - (0 - w0 * (2 ^ 31 - 1) / 2 ^ 20) - 0 := by
  refine ⟨rfl, by decide +kernel, by simp, by decide +kernel, ?_⟩
  intro w0 hw
  have h1 : 0 ≤ w0 * (2 ^ 31 - 1) / 2 ^ 20 := Int.ediv_nonneg (by positivity) (by norm_num)
  norm_num at h1 ⊢
  omega

theorem witness_ClockSplitsAnywhere :
    (0 : Int) ≤ 1 ∧ (0 : Int) ≤ 0 ∧ exec (.clock 1) (hosted e8) = .next (reached 1 e8) ∧
      (∃ u, exec (.clock 1) (reached 1 e8) = .next u ∧ u.response = some { status := 0, data := 0, samples := samplesOf u }) ∧
      (reached 1 e8).response = some { status := 0, data := 0, samples := samplesOf (reached 1 e8) } ∧
      exec (.clock (1 + 1)) (hosted e8) = .next (reached (1 + 1) e8) := by
  have h := clock_meets 1 e8 (by decide +kernel)
  refine ⟨by decide, by decide, h.1, ?_, h.2.2, (clock_meets (1 + 1) e8 (by decide +kernel)).1⟩
  cases hx : exec (.clock 1) (reached 1 e8) with
  | next u =>
    obtain ⟨_, e1, ss, _, _, _, ht⟩ := clockCommand_next ((exec_clock 1 (reached 1 e8)).symm.trans hx)
    exact ⟨u, rfl, by rw [ht]; rfl⟩
  | fault f =>
    have : completes (exec (.clock 1) (reached 1 e8)) = true := by decide +kernel
    rw [hx] at this
    cases this
  | refused r =>
    have : completes (exec (.clock 1) (reached 1 e8)) = true := by decide +kernel
    rw [hx] at this
    cases this

theorem witness_ClockReturnsTheSampleCount :
    (hosted e8).inst = .running e8 ∧ e8.resampler.racc < e8.samp.clk ∧ exec (.clock (2 : Nat)) (hosted e8) = .next (reached 2 e8) :=
  ⟨rfl, by decide +kernel, (clock_meets 2 e8 (by decide +kernel)).1⟩

theorem witness_ClockKeepsWhatItMust :
    (hosted { e8 with wq := [⟨3, 24, 3⟩] }).inst = .running { e8 with wq := [⟨3, 24, 3⟩] } ∧
      exec (.clock 2) (hosted { e8 with wq := [⟨3, 24, 3⟩] }) = .next (reached 2 { e8 with wq := [⟨3, 24, 3⟩] }) ∧
      ∀ p ∈ ({ e8 with wq := [⟨3, 24, 3⟩] } : Engine).wq, e8.cyc + max 2 0 < p.stamp :=
  ⟨rfl, (clock_meets 2 _ (by decide +kernel)).1, by decide +kernel⟩

/-- Two writes due at 2, one later. -/
def queued : Engine := { e8 with wq := [⟨2, 24, 1⟩, ⟨2, 24, 2⟩, ⟨3, 24, 3⟩] }

/-- A gate edge up and down, TEST set and cleared, on voice 1 at stamp 2, and a write at stamp 3 (R329). -/
def queuedEdges : Engine := { e8 with wq := [⟨2, 4, 1⟩, ⟨2, 4, 8⟩, ⟨2, 4, 1⟩, ⟨3, 24, 3⟩] }

theorem witness_QueuedWritesApplyInOrder :
    (hosted queuedEdges).inst = .running queuedEdges ∧
      queuedEdges.wq = [⟨2, 4, 1⟩, ⟨2, 4, 8⟩, ⟨2, 4, 1⟩] ++ [⟨3, 24, 3⟩] ∧ queuedEdges.cyc < 2 ∧
      (∀ p ∈ ([⟨2, 4, 1⟩, ⟨2, 4, 8⟩, ⟨2, 4, 1⟩] : List PendingWrite), p.stamp = 2) ∧
      (∀ p ∈ ([⟨3, 24, 3⟩] : List PendingWrite), 2 < p.stamp) ∧
      queuedEdges.cyc + 1 < 2 ∧ exec (.clock 1) (hosted queuedEdges) = .next (reached 1 queuedEdges) ∧
      exec (.clock (2 - queuedEdges.cyc)) (hosted queuedEdges) = .next (reached (2 - queuedEdges.cyc) queuedEdges) ∧
      (4 : RegAddr).val = 7 * (0 : VoiceId).val + 4 :=
  ⟨rfl, rfl, by decide +kernel, by decide, by decide, by decide +kernel, (clock_meets _ queuedEdges (by decide +kernel)).1,
    (clock_meets _ queuedEdges (by decide +kernel)).1, rfl⟩

/-- R329, by hand: gate 0 to 1 to 0 to 1 leaves ATTACK; the fall of TEST reloads the noise register, here 5 before. -/
theorem test_queued_edges :
    let e := applyDue { modifyVoice queuedEdges 0 (fun x => { x with sr := 5 }) with cyc := 2 }
    e.voices[0].envState = .attack ∧ e.voices[0].sr = 0x7FFFF8#23 ∧ e.wq = [⟨3, 24, 3⟩] := by decide +kernel

theorem witness_AccumulatorAndSnapshotStep :
    (hosted e8).inst = .running e8 ∧ exec (.clock 1) (hosted e8) = .next (reached 1 e8) ∧
      (reached 1 e8).inst = .running (engineOf (reached 1 e8) e8) ∧ (2 : VoiceId).val = ((0 : VoiceId).val + 2) % 3 :=
  ⟨rfl, (clock_meets 1 e8 (by decide +kernel)).1, (clock_meets 1 e8 (by decide +kernel)).2.1, rfl⟩

/-- NOISE and SAW selected, bit 19 about to rise. -/
def noisy : Engine := voiced [(1, 0x80), (4, 0xA0)] fun x => { x with acc := 0x078000 }

/-- The write-back clause on `noisy` (with a shift), the other on `e8` (without one). -/
theorem witness_NoiseRegisterStep :
    ((hosted noisy).inst = .running noisy ∧ exec (.clock 1) (hosted noisy) = .next (reached 1 noisy) ∧
        (reached 1 noisy).inst = .running (engineOf (reached 1 noisy) noisy) ∧ (∀ p ∈ noisy.wq, noisy.cyc + 1 < p.stamp) ∧
        (0x7FFFF0#23).toNat =
          (if (voiceReg noisy.reg 0 4).getLsbD 3 = false ∧ noisy.voices[0].acc.getLsbD 19 = false ∧
              (engineOf (reached 1 noisy) noisy).voices[0].acc.getLsbD 19 = true
            then 2 * noisy.voices[0].sr.toNat % 2 ^ 23 + (noisy.voices[0].sr.toNat / 2 ^ 22 + noisy.voices[0].sr.toNat / 2 ^ 17) % 2
            else noisy.voices[0].sr.toNat) ∧
        (voiceReg noisy.reg 0 4).getLsbD 7 = true ∧ (voiceReg noisy.reg 0 4).toNat / 16 % 8 ≠ 0 ∧
        (voiceReg noisy.reg 0 4).getLsbD 3 = false) ∧
      (hosted e8).inst = .running e8 ∧ exec (.clock 1) (hosted e8) = .next (reached 1 e8) ∧
        (0x7FFFF8#23).toNat =
          (if (voiceReg e8.reg 0 4).getLsbD 3 = false ∧ e8.voices[0].acc.getLsbD 19 = false ∧
              (engineOf (reached 1 e8) e8).voices[0].acc.getLsbD 19 = true
            then 2 * e8.voices[0].sr.toNat % 2 ^ 23 + (e8.voices[0].sr.toNat / 2 ^ 22 + e8.voices[0].sr.toNat / 2 ^ 17) % 2
            else e8.voices[0].sr.toNat) ∧
        (voiceReg e8.reg 0 4).getLsbD 7 = false := by
  have h := clock_meets 1 noisy (by decide +kernel)
  refine ⟨⟨rfl, h.1, h.2.1, by decide +kernel, by decide +kernel, by decide +kernel, by decide +kernel, by decide +kernel⟩,
    rfl, (clock_meets 1 e8 (by decide +kernel)).1, by decide +kernel, by decide +kernel⟩

/-- Voice 1 locked. -/
def locked : Engine := voiced [(1, 0x80), (4, 0x80)] fun x => { x with acc := 0x078000, sr := 0 }

theorem witness_LockedNoiseRegisterStaysLocked :
    (hosted locked).inst = .running locked ∧ exec (.clock 2) (hosted locked) = .next (reached 2 locked) ∧
      (reached 2 locked).inst = .running (engineOf (reached 2 locked) locked) ∧
      (∀ p ∈ locked.wq, locked.cyc + max 2 0 < p.stamp) ∧ locked.voices[0].sr = 0 :=
  ⟨rfl, (clock_meets 2 locked (by decide +kernel)).1, (clock_meets 2 locked (by decide +kernel)).2.1, by decide +kernel,
    by decide +kernel⟩

/-- Voice 1 under test. -/
def tested : Engine := voiced [(1, 0x80), (4, 0x88)] fun x => { x with acc := 0x078000 }

theorem witness_TestBitHoldsTheOscillator :
    (hosted tested).inst = .running tested ∧ (0 : Int) < 1 ∧ exec (.clock 1) (hosted tested) = .next (reached 1 tested) ∧
      (reached 1 tested).inst = .running (engineOf (reached 1 tested) tested) ∧ (∀ p ∈ tested.wq, tested.cyc + 1 < p.stamp) ∧
      (voiceReg tested.reg 0 4).getLsbD 3 = true :=
  ⟨rfl, by decide, (clock_meets 1 tested (by decide +kernel)).1, (clock_meets 1 tested (by decide +kernel)).2.1, by decide +kernel,
    by decide +kernel⟩

/-- `noisy` with another volume and another voice 2. -/
def noisy' : Engine := modifyVoice (poke noisy [(8, 0x11), (24, 0x0F)]) 1 fun x => { x with acc := 5, env := 9 }

theorem witness_VoiceDependsOnItselfAndItsSourceSnapshot :
    exec (.clock 1) (hosted noisy) = .next (reached 1 noisy) ∧ exec (.clock 1) (hosted noisy') = .next (reached 1 noisy') ∧
      (reached 1 noisy).inst = .running (engineOf (reached 1 noisy) noisy) ∧
      (reached 1 noisy').inst = .running (engineOf (reached 1 noisy') noisy') ∧ noisy.wq = [] ∧ noisy'.wq = [] ∧
      (2 : VoiceId).val = ((0 : VoiceId).val + 2) % 3 ∧ noisy.model = noisy'.model ∧
      (∀ k : Fin 7, voiceReg noisy.reg 0 k = voiceReg noisy'.reg 0 k) ∧ noisy.voices[0] = noisy'.voices[0] ∧
      noisy.voices[2].snapMsb = noisy'.voices[2].snapMsb ∧ noisy.voices[2].snapFall = noisy'.voices[2].snapFall ∧
      noisy ≠ noisy' := by
  have h := clock_meets 1 noisy (by decide +kernel)
  have h' := clock_meets 1 noisy' (by decide +kernel)
  refine ⟨h.1, h'.1, h.2.1, h'.2.1, ?_⟩
  decide +kernel

theorem witness_WaveformIsTheAndOfTheSelected :
    (2 : VoiceId).val = ((0 : VoiceId).val + 2) % 3 ∧ 11 < 12 ∧ 0x080000 = (voiceStages tables noisy).voices[0].acc.toNat ∧
      0x7FFFF0#23 = (if noiseClocks (testBit noisy.reg 0) noisy.voices[0].acc (voiceStages tables noisy).voices[0].acc
        then shiftNoise noisy.voices[0].sr else noisy.voices[0].sr) ∧
      (false = true ↔ (2 ^ 23 ≤ 0x080000 ↔ ¬((voiceReg noisy.reg 0 4).getLsbD 2 = true ∧ noisy.voices[2].snapMsb = true))) := by
  decide +kernel

/-- Voice 1 in the stage `st` at level `env`, counters `rc` and `ec`, all rates 0. -/
def enveloped (st : EnvState) (env : BitVec 8) (rc : BitVec 15) (ec : Nat) : Engine :=
  voiced [] fun x => { x with envState := st, env := env, rc := rc, ec := ec }

/-- The four clauses: no match at the counter's wrap; a match in ATTACK; a match one short of the stretch; a match at it. -/
theorem witness_EnvelopeStep :
    ([enveloped .release 9 0x7FFF 0, enveloped .attack 254 8 3, enveloped .decaySustain 0x5D 8 0, enveloped .release 0x5E 8 0].all
        fun e => completes (exec (.clock 1) (hosted e)) && decide (∀ p ∈ e.wq, e.cyc + 1 < p.stamp)) = true ∧
      (1 = (if (0x7FFF : BitVec 15).toNat + 1 = 0x8000 then 1 else (0x7FFF : BitVec 15).toNat + 1) ∧ 1 ≠ 9) ∧
      9 = (if (8 : BitVec 15).toNat + 1 = 0x8000 then 1 else (8 : BitVec 15).toNat + 1) ∧
      9 = [9, 32, 63, 95, 149, 220, 267, 313, 392, 977, 1954, 3126, 3907, 11720, 19532, 31251].getD
        ((voiceReg e8.reg 0 5).toNat / 16) 0 ∧
      (0 + 1 < expPeriod 0x5D) ∧ expPeriod 0x5E ≤ 0 + 1 := by decide +kernel

theorem witness_EnvelopeLevelMovesByOneInItsDirection :
    (exec (.clock 1) (hosted (enveloped .attack 254 8 3)) = .next (reached 1 (enveloped .attack 254 8 3)) ∧
        (enveloped .attack 254 8 3).voices[0].envState = .attack) ∧
      exec (.clock 1) (hosted (enveloped .release 1 8 29)) = .next (reached 1 (enveloped .release 1 8 29)) ∧
      (enveloped .release 1 8 29).voices[0].envState ≠ .attack :=
  ⟨⟨(clock_meets 1 _ (by decide +kernel)).1, by decide +kernel⟩, (clock_meets 1 _ (by decide +kernel)).1, by decide +kernel⟩

theorem witness_AttackNeverLowersTheLevel :
    exec (.clock 2) (hosted (enveloped .attack 7 8 3)) = .next (reached 2 (enveloped .attack 7 8 3)) ∧
      (reached 2 (enveloped .attack 7 8 3)).inst = .running (engineOf (reached 2 (enveloped .attack 7 8 3)) e8) ∧
      (enveloped .attack 7 8 3).wq = [] ∧ (engineOf (reached 2 (enveloped .attack 7 8 3)) e8).voices[0].envState = .attack := by
  refine ⟨(clock_meets 2 _ (by decide +kernel)).1, (clock_meets 2 _ (by decide +kernel)).2.1, ?_⟩
  decide +kernel

theorem witness_MixerRoutesTheVoices :
    ∃ vo : VoiceId → Int, ∀ v, vo v =
      if (voiceReg noisy.reg v 4).getLsbD 3 = true ∨ (voiceReg noisy.reg v 4).toNat / 16 = 0 then testTables.voiceDc noisy.model / 2 ^ 7
      else ((((testTables.waveDac noisy.model 0xFFF).toNat : Int) - testTables.waveZero noisy.model) *
        ((testTables.envDac noisy.model noisy.voices[v].env).toNat : Int) + testTables.voiceDc noisy.model) / 2 ^ 7 :=
  ⟨_, fun _ => rfl⟩

theorem witness_MixerOutputIsBounded :
    testTables.waveZero e8.model = 0x800 ∧ testTables.voiceDc e8.model = 0 ∧ testTables.extIn = 0 := ⟨rfl, rfl, rfl⟩

theorem witness_CycleSampleIsTheScaledSum :
    (hosted e8).inst = .running e8 ∧ exec (.clock 1) (hosted e8) = .next (reached 1 e8) ∧
      (reached 1 e8).inst = .running (engineOf (reached 1 e8) e8) ∧
      (0 : Int) = (if e8.reg[24].getLsbD 4 = true then (engineOf (reached 1 e8) e8).filter.vlp else 0) +
        (if e8.reg[24].getLsbD 5 = true then (engineOf (reached 1 e8) e8).filter.vbp else 0) +
        (if e8.reg[24].getLsbD 6 = true then (engineOf (reached 1 e8) e8).filter.vhp else 0) ∧
      (0 : Int) = (if e8.model = .mos8580 then 0 else Config.dist6581 0) :=
  ⟨rfl, (clock_meets 1 e8 (by decide +kernel)).1, (clock_meets 1 e8 (by decide +kernel)).2.1, by decide +kernel, rfl⟩

theorem witness_ClockAfterResetIsSilent :
    (hosted e8).inst = .running e8 ∧ 0 < e8.samp.clk ∧ e8.cyc + (5 : Nat) ≤ 9223372036854775807 :=
  ⟨rfl, by decide +kernel, by decide +kernel⟩

theorem witness_HistoryShiftsByOne :
    (hosted e8).inst = .running e8 ∧ exec (.clock 1) (hosted e8) = .next (reached 1 e8) ∧
      (reached 1 e8).inst = .running (engineOf (reached 1 e8) e8) ∧ 16382 + 1 < 16384 ∧ 16384 ≤ 16384 :=
  ⟨rfl, (clock_meets 1 e8 (by decide +kernel)).1, (clock_meets 1 e8 (by decide +kernel)).2.1, by decide, by decide⟩

/-- Both methods; the second sample of the step, `r = 1`. -/
theorem witness_FastAndInterpolateSamples :
    ([fresh .mos8580 .fast, fresh .mos8580 .interpolate].all fun e =>
        completes (exec (.clock 1) (hosted e)) && decide (e.resampler.racc < e.samp.clk) &&
          decide ((samplesOf (reached 1 e))[1]? = some 0) && decide (1 = e.resampler.racc + e.samp.out - (1 + 1) * e.samp.clk)) = true ∧
      (fresh .mos8580 .fast).samp.method = .fast ∧ (fresh .mos8580 .interpolate).samp.method = .interpolate := by decide +kernel

/-- Both methods; the second sample of the step, `r = 1`, whatever the kernel is. -/
theorem witness_SincMethodSamples :
    ([fresh .mos8580 .resample, fresh .mos8580 .resampleFastmem].all fun e =>
        completes (exec (.clock 1) (hosted e)) && ((samplesOf (reached 1 e))[1]?).isSome &&
          decide (1 = e.resampler.racc + e.samp.out - (1 + 1) * e.samp.clk)) = true ∧
      (fresh .mos8580 .resample).samp.method = .resample ∧ (fresh .mos8580 .resampleFastmem).samp.method = .resampleFastmem := by
  decide +kernel

theorem witness_ConstantIsReproduced :
    3 < 5 ∧
      (∀ p : Nat, p < (testTables.fir .resample 2 5 none).phases →
        ∑ j ∈ Finset.range (testTables.fir .resample 2 5 none).taps, (testTables.fir .resample 2 5 none).weight p j =
          2 ^ (testTables.fir .resample 2 5 none).shift) ∧
      ∀ j : Nat, j ≤ (testTables.fir .resample 2 5 none).taps → histAt (List.replicate 6 (-1234)) j = -1234 := by decide +kernel

theorem witness_StartMeetsTheInvariant :
    bare.inst = .unconstructed ∧ ∃ t, exec (.new 1 3 1 1 none) bare = .next t := ⟨rfl, _, rfl⟩

theorem witness_EveryStepKeepsTheInvariant :
    State.Inv { hosted queued with inbox := [0x50000000000000000000000000000002#128] } ∧
      ∃ t, step { hosted queued with inbox := [0x50000000000000000000000000000002#128] } = .next t := by
  refine ⟨?_, reached 2 queued, ?_⟩
  · show queued.InvUnder tables
    decide +kernel
  · have hd : decode 0x50000000000000000000000000000002#128 = .clock 2 := by decide +kernel
    show exec (decode 0x50000000000000000000000000000002#128) (hosted queued) = _
    rw [hd]
    exact (clock_meets 2 queued (by decide +kernel)).1

theorem witness_RunningEngineKeepsItsIdentity :
    (hosted e8).inst = .running e8 ∧ (∃ t, exec .reset (hosted e8) = .next t) ∧
      (∃ t, exec (.writeOutOfRange 25 0 (-1)) (hosted e8) = .next t) ∧ ((25 : Int) < 0 ∨ 24 < (25 : Int)) :=
  ⟨rfl, ⟨_, rfl⟩, ⟨_, rfl⟩, .inr (by decide)⟩

theorem witness_ExecIsTheMachineOfItsRecord : (placeCommand bare 0#128).inbox = 0#128 :: [] := rfl

/-- The spec's test record, and the queue and the counter of the witness before. -/
theorem witness_EveryStepUnderAnyRecordKeepsTheInvariant :
    (∀ level, testTables.expPeriod level ≤ 30) ∧
      State.InvUnder testTables { hosted queued with inbox := [0x50000000000000000000000000000002#128] } ∧
      ∃ t, stepUnder testTables { hosted queued with inbox := [0x50000000000000000000000000000002#128] } = .next t := by
  refine ⟨?_, ?_, ?_⟩
  · decide +kernel
  · show queued.InvUnder testTables
    decide +kernel
  · have h : completes (stepUnder testTables { hosted queued with inbox := [0x50000000000000000000000000000002#128] }) = true := by
      decide +kernel
    cases hx : stepUnder testTables { hosted queued with inbox := [0x50000000000000000000000000000002#128] } with
    | next t => exact ⟨t, rfl⟩
    | fault f => rw [hx] at h; cases h
    | refused r => rw [hx] at h; cases h

end Sys2Proof.Tests
end

