-- ==== Sys2Proof/Proofs/AnyRecord.lean ====
section
/-! SUPPORT. The machine under any configuration record: how a step reads its command, and that every step keeps the invariant of
Safety.lean. The invariant is carried through APPLY, one cycle step, a run of cycle steps and the commands, in that order. -/

namespace Sys2Proof.Machine

/-! ### The step under a record -/

/-- A step takes the oldest command word and executes the instruction it decodes to (R11, R100). -/
theorem stepUnder_of_inbox_cons (c : Config.Tables) {s : State} {w : CmdWord} {rest : List CmdWord} (h : s.inbox = w :: rest) :
    stepUnder c s = execUnder c (decode w) { s with inbox := rest } := by
  simp only [stepUnder, fetch, h]

/-- With no command issued there is no step (log entry 1). -/
theorem stepUnder_of_inbox_nil (c : Config.Tables) {s : State} (h : s.inbox = []) :
    stepUnder c s = .refused .awaitingCommand := by
  simp only [stepUnder, fetch, h]

/-- Everything a step that answers a next state can have done: it executed one command on the state without its word. -/
theorem stepUnder_next {c : Config.Tables} {s u : State} (h : stepUnder c s = .next u) :
    ∃ w rest, s.inbox = w :: rest ∧ execUnder c (decode w) { s with inbox := rest } = .next u := by
  cases hb : s.inbox with
  | nil => rw [stepUnder_of_inbox_nil c hb] at h; cases h
  | cons w rest => exact ⟨w, rest, rfl, (stepUnder_of_inbox_cons c hb).symm.trans h⟩

/-! ### The invariant of a state -/

theorem invUnder_running {c : Config.Tables} {s : State} {e : Engine} (h : s.inst = .running e) :
    s.InvUnder c ↔ e.InvUnder c := by
  unfold State.InvUnder; rw [h]; rfl

/-- The invariant speaks of the field `inst` alone. -/
theorem invUnder_congr {c : Config.Tables} {s u : State} (h : u.inst = s.inst) : u.InvUnder c ↔ s.InvUnder c := by
  unfold State.InvUnder; rw [h]

/-! ### APPLY keeps the invariant -/

theorem regsMasked_set {r : RegFile} (h : regsMasked r) (a : RegAddr) (value : Int) :
    regsMasked (r.set a (maskedValue a value)) := by
  intro b
  by_cases hab : a = b
  · subst hab; simp [maskedValue_and_mask]
  · have hv : a.val ≠ b.val := fun hh => hab (Fin.ext hh)
    simpa [hv] using h b

/-- The gate bit of voice `v` after a register was set: the new byte's if the register is `CONTROL_v` (R26). -/
theorem gate_set (r : RegFile) (a : RegAddr) (b : Byte) (v : VoiceId) :
    gate (r.set a b) v = if controlVoice a = some v then b.getLsbD 0 else gate r v := by
  simp only [controlVoice_some, gate, controlByte, voiceReg]
  split
  · rename_i h; simp [h]
  · rename_i h; simp [h]

/-- The byte in `CONTROL_v` holds the gate bit of voice `v` (R26). -/
theorem readReg_control_gate (e : Engine) {a : RegAddr} {v : VoiceId} (h : controlVoice a = some v) :
    (readReg e a).getLsbD 0 = gate e.reg v := by
  simp [readReg, gate, controlByte, voiceReg, controlVoice_some.1 h]

/-- An edge of the gate moves the stage along with the gate (R121, R200). -/
theorem gateEdge_release_iff {gOld gNew : Bool} {x : Voice} (h : x.envState = .release ↔ gOld = false) :
    (gateEdge gOld gNew x).envState = .release ↔ gNew = false := by
  rw [gateEdge_envState]
  cases gOld <;> cases gNew <;> simp [rises, falls, h]

/-- APPLY keeps each voice's envelope legal (R43, R121, R200). -/
theorem applyWrite_envelopeLegal {e : Engine} {v : VoiceId} (h : envelopeLegal e.reg v e.voices[v]) (a : RegAddr) (value : Int) :
    envelopeLegal (applyWrite a value e).reg v (applyWrite a value e).voices[v] := by
  obtain ⟨hec, hst⟩ := h
  refine ⟨?_, ?_⟩
  · obtain ⟨-, -, -, -, -, hframe⟩ := applyWrite_voice_frame a value e v
    rw [hframe]; exact hec
  · rw [applyWrite_reg, gate_set, applyWrite_voice]
    split
    · rename_i ha
      rw [testEdge_envState, readReg_control_gate e ha]
      exact gateEdge_release_iff hst
    · exact hst

/-- APPLY keeps the snapshots current: it leaves the oscillator alone (R39, R120). -/
theorem applyWrite_snapshotCurrent {e : Engine} {v : VoiceId} (h : snapshotCurrent e.voices[v]) (a : RegAddr) (value : Int) :
    snapshotCurrent (applyWrite a value e).voices[v] := by
  obtain ⟨hacc, hmsb, hfall, -⟩ := applyWrite_voice_frame a value e v
  unfold snapshotCurrent
  rw [hacc, hmsb, hfall]
  exact h

theorem applyWrite_inv {c : Config.Tables} {e : Engine} (h : e.InvUnder c) (a : RegAddr) (value : Int) :
    (applyWrite a value e).InvUnder c := by
  obtain ⟨hcyc, hq, hreg, hsnap, henv, hfil, hsamp, hhist⟩ := h
  refine ⟨by simpa [cycInRange] using hcyc, by simpa [queueOrdered] using hq, ?_,
    fun v => applyWrite_snapshotCurrent (hsnap v) a value, fun v => applyWrite_envelopeLegal (henv v) a value,
    by simpa using hfil, by simpa [samplingLegal] using hsamp, by simpa using hhist⟩
  rw [applyWrite_reg]
  exact regsMasked_set hreg a value

theorem foldl_applyWrite_inv {c : Config.Tables} (ps : List PendingWrite) {e : Engine} (h : e.InvUnder c) :
    (ps.foldl (fun x p => applyWrite p.addr p.value x) e).InvUnder c := by
  induction ps generalizing e with
  | nil => exact h
  | cons p ps ih => exact ih (applyWrite_inv h p.addr p.value)

/-! ### The stages of a cycle step -/

/-- The oscillator stage makes the snapshots current, whatever they were (R39, R164). -/
theorem oscillateVoice_snapshotCurrent (t : Config.Tables) (e : Engine) (v : VoiceId) :
    snapshotCurrent (oscillateVoice t e v).1 := by
  refine ⟨rfl, fun hfall => ?_⟩
  simp only [oscillateVoice, topBitFalls, falls, Bool.and_eq_true, Bool.not_eq_true'] at hfall ⊢
  exact hfall.2

theorem voiceStages_snapshotCurrent (t : Config.Tables) (e : Engine) (v : VoiceId) :
    snapshotCurrent (voiceStages t e).voices[v] := by
  rw [voiceStages_voice]
  obtain ⟨hacc, -, hmsb, hfall⟩ := envelopeVoice_frame t e.reg v (oscillateVoice t e v).1
  unfold snapshotCurrent
  rw [hacc, hmsb, hfall]
  exact oscillateVoice_snapshotCurrent t e v

/-- An ATTACK step never enters RELEASE (R196). -/
theorem attackStep_not_release {x : Voice} (h : x.envState ≠ .release) : (attackStep x).envState ≠ .release := by
  unfold attackStep
  dsimp only
  split
  · simp
  · split <;> simp [h]

theorem decayStep_envState (t : Config.Tables) (r : RegFile) (v : VoiceId) (x : Voice) :
    (decayStep t r v x).envState = x.envState := by
  unfold decayStep; split <;> rfl

/-- The exponential counter stays below the largest period (R43, R197). -/
theorem decayStep_ec_le {t : Config.Tables} (ht : ∀ level, t.expPeriod level ≤ 30) (r : RegFile) (v : VoiceId) (x : Voice) :
    (decayStep t r v x).ec ≤ 29 := by
  have hp := ht x.env
  unfold decayStep
  split
  · dsimp only; omega
  · exact Nat.zero_le _

/-- The envelope stage keeps a voice's envelope legal when no period is above 30 (R43, R194 to R201). -/
theorem envelopeVoice_envelopeLegal {t : Config.Tables} (ht : ∀ level, t.expPeriod level ≤ 30) {r : RegFile} {v : VoiceId} {x : Voice}
    (h : envelopeLegal r v x) : envelopeLegal r v (envelopeVoice t r v x) := by
  obtain ⟨hec, hst⟩ := h
  unfold envelopeVoice
  dsimp only
  split
  · split
    · rename_i hx
      refine ⟨Nat.zero_le _, ?_⟩
      have hnot : x.envState ≠ .release := by simp [hx]
      have hgate : gate r v ≠ false := fun hg => hnot (hst.2 hg)
      exact iff_of_false (attackStep_not_release hnot) hgate
    · exact ⟨decayStep_ec_le ht .., by rw [decayStep_envState]; exact hst⟩
    · exact ⟨decayStep_ec_le ht .., by rw [decayStep_envState]; exact hst⟩
  · exact ⟨hec, hst⟩

theorem voiceStages_envelopeLegal {t : Config.Tables} (ht : ∀ level, t.expPeriod level ≤ 30) {e : Engine} {v : VoiceId}
    (h : envelopeLegal e.reg v e.voices[v]) : envelopeLegal e.reg v (voiceStages t e).voices[v] := by
  rw [voiceStages_voice]
  exact envelopeVoice_envelopeLegal ht h

/-- The resampler stage leaves the accumulator below the input rate, and touches neither rate (R45, R264). -/
theorem resampleStep_samplingLegal {t : Config.Tables} {e : Engine} (h : samplingLegal e) (y : Sample) :
    samplingLegal (resampleStep t e y).1 := by
  obtain ⟨hclk, hout, -⟩ := h
  rw [resampleStep_eq]
  refine ⟨hclk, hout, ?_⟩
  dsimp only
  rw [(emitLoop_div _ hclk _ _ le_rfl).1]
  exact Nat.mod_lt _ hclk

theorem resampleStep_histCanonical (t : Config.Tables) (e : Engine) (y : Sample) :
    histCanonical (resampleStep t e y).1.resampler.hist := by
  rw [resampleStep_eq]
  exact pushHistory_canonical ..

/-! ### A cycle step and a run of them -/

/-- A queue of future stamps, sorted, is the entries stamped with the next cycle and then the later ones (R35, R262). -/
theorem queue_splits_at_next {cyc : Int} {q : List PendingWrite} (hq : ∀ p ∈ q, cyc < p.stamp)
    (hs : q.Pairwise (fun p q => p.stamp ≤ q.stamp)) :
    ∃ due rest, q = due ++ rest ∧ (∀ p ∈ due, p.stamp = cyc + 1) ∧ ∀ p ∈ rest, cyc + 1 < p.stamp := by
  induction q with
  | nil => exact ⟨[], [], rfl, by simp, by simp⟩
  | cons p ps ih =>
    obtain ⟨hle, hs⟩ := List.pairwise_cons.1 hs
    obtain ⟨hp, hps⟩ := List.forall_mem_cons.1 hq
    by_cases hdue : p.stamp = cyc + 1
    · obtain ⟨due, rest, rfl, hd, hr⟩ := ih hps hs
      exact ⟨p :: due, rest, rfl, List.forall_mem_cons.2 ⟨hdue, hd⟩, hr⟩
    · have hlt : cyc + 1 < p.stamp := by omega
      exact ⟨[], p :: ps, rfl, by simp, List.forall_mem_cons.2 ⟨hlt, fun x hx => lt_of_lt_of_le hlt (hle x hx)⟩⟩

/-- A cycle step in which no write falls due keeps the invariant. -/
theorem cycle_inv_of_none_due {t : Config.Tables} (ht : ∀ level, t.expPeriod level ≤ 30) {e e1 : Engine} {ss : List Sample}
    (hi : e.InvUnder t) (hmax : e.cyc + 1 ≤ cycleMax t) (hq : ∀ p ∈ e.wq, e.cyc + 1 < p.stamp)
    (h : cycle t e = .ok (e1, ss)) : e1.InvUnder t := by
  obtain ⟨⟨hcyc, -⟩, ⟨hwq, hsorted⟩, hreg, -, henv, -, hsamp, -⟩ := hi
  obtain ⟨hf, rfl, -⟩ := cycle_ok h
  rw [applyDue_of_none_due (by simpa using hq)]
  refine ⟨⟨by dsimp only; omega, hmax⟩, ⟨?_, by simpa using hsorted⟩, by simpa using hreg, ?_, ?_, by simpa using hf,
    resampleStep_samplingLegal (by simpa [samplingLegal] using hsamp) _, resampleStep_histCanonical ..⟩
  · intro p hp
    rw [resampleStep_wq, pipeline_wq] at hp
    exact ⟨hq p hp, (hwq p hp).2⟩
  · intro v
    rw [resampleStep_voices, pipeline_voices]
    exact voiceStages_snapshotCurrent t e v
  · intro v
    rw [resampleStep_voices, pipeline_voices, resampleStep_reg, pipeline_reg]
    exact voiceStages_envelopeLegal ht (henv v)

/-- Dropping entries from the head of the queue keeps the invariant. -/
theorem inv_of_queue_suffix {c : Config.Tables} {e : Engine} {due rest : List PendingWrite} (h : e.InvUnder c)
    (hq : e.wq = due ++ rest) : Engine.InvUnder c { e with wq := rest } := by
  obtain ⟨hcyc, ⟨hwq, hsorted⟩, hothers⟩ := h
  rw [hq] at hwq hsorted
  exact ⟨hcyc, ⟨fun p hp => hwq p (List.mem_append_right _ hp), (List.pairwise_append.1 hsorted).2.1⟩, hothers⟩

/-- A cycle step keeps the invariant: it is the step without the entries that fall due, and then their application (R261, R262). -/
theorem cycle_inv {t : Config.Tables} (ht : ∀ level, t.expPeriod level ≤ 30) {e e1 : Engine} {ss : List Sample}
    (hi : e.InvUnder t) (hmax : e.cyc + 1 ≤ cycleMax t) (h : cycle t e = .ok (e1, ss)) : e1.InvUnder t := by
  have ⟨_, ⟨hwq, hsorted⟩, _⟩ := hi
  obtain ⟨due, rest, hq, hd, hr⟩ := queue_splits_at_next (fun p hp => (hwq p hp).1) hsorted
  obtain ⟨e0, h0, -, -, -, rfl⟩ := cycle_of_due h hq hd hr
  exact foldl_applyWrite_inv due (cycle_inv_of_none_due ht (inv_of_queue_suffix hi hq) hmax hr h0)

/-- A run of cycle steps that ends within CYCLE_MAX keeps the invariant (R107, R304). -/
theorem runCycles_inv {t : Config.Tables} (ht : ∀ level, t.expPeriod level ≤ 30) {n : Nat} {e e1 : Engine} {ss : List Sample}
    (hi : e.InvUnder t) (hmax : e.cyc + n ≤ cycleMax t) (h : runCycles t n e = .ok (e1, ss)) : e1.InvUnder t := by
  induction n generalizing e ss with
  | zero =>
    obtain ⟨rfl, -⟩ := Prod.mk.inj (Except.ok.inj h)
    exact hi
  | succ n ih =>
    obtain ⟨e2, ss1, ss2, hc, hr, -⟩ := runCycles_succ_ok h
    obtain ⟨-, -, hcyc, -, -⟩ := cycle_frame hc
    push_cast at hmax
    exact ih (cycle_inv ht hi (by omega) hc) (by omega) hr

/-! ### The commands -/

theorem raiseFlag_inv {c : Config.Tables} {e : Engine} (h : e.InvUnder c) (k : ErrorClass) : (raiseFlag k e).InvUnder c := by
  simpa only [Engine.InvUnder, cycInRange, queueOrdered, samplingLegal, raiseFlag_cyc, raiseFlag_wq, raiseFlag_reg, raiseFlag_voices,
    raiseFlag_filter, raiseFlag_samp, raiseFlag_resampler] using h

/-- Queueing a write of the future keeps the invariant (R35, R105). -/
theorem insertPending_inv {c : Config.Tables} {e : Engine} (h : e.InvUnder c) {p : PendingWrite} (hp : e.cyc < p.stamp)
    (hmax : p.stamp ≤ cycleMax c) : Engine.InvUnder c { e with wq := insertPending p e.wq } := by
  obtain ⟨hcyc, ⟨hwq, hsorted⟩, hothers⟩ := h
  refine ⟨hcyc, ⟨fun x hx => ?_, insertPending_sorted hsorted⟩, hothers⟩
  rcases mem_insertPending.1 hx with rfl | hx
  · exact ⟨hp, hmax⟩
  · exact hwq x hx

/-- The three cases of a WRITE in range: in the past, due, in the future (R105). -/
theorem scheduleWrite_cases (a : RegAddr) (value stamp : Int) (e : Engine) :
    (stamp < e.cyc ∧ scheduleWrite a value stamp e = applyWrite a value (raiseFlag .nonMonotonicCycleWrite e)) ∨
      (stamp = e.cyc ∧ scheduleWrite a value stamp e = applyWrite a value e) ∨
      (e.cyc < stamp ∧
        scheduleWrite a value stamp e = { e with wq := insertPending { stamp := stamp, addr := a, value := value } e.wq }) := by
  unfold scheduleWrite
  rcases lt_trichotomy stamp e.cyc with h | h | h
  · exact .inl ⟨h, by simp [h]⟩
  · exact .inr (.inl ⟨h, by simp [h]⟩)
  · exact .inr (.inr ⟨h, by simp [not_lt_of_gt h, ne_of_gt h]⟩)

theorem scheduleWrite_inv {c : Config.Tables} {e : Engine} (h : e.InvUnder c) (a : RegAddr) (value : Int) {stamp : Int}
    (hmax : stamp ≤ cycleMax c) : (scheduleWrite a value stamp e).InvUnder c := by
  obtain ⟨-, hw⟩ | ⟨-, hw⟩ | ⟨hlt, hw⟩ := scheduleWrite_cases a value stamp e
  · rw [hw]; exact applyWrite_inv (raiseFlag_inv h _) a value
  · rw [hw]; exact applyWrite_inv h a value
  · rw [hw]; exact insertPending_inv h hlt hmax

theorem regsMasked_zero : regsMasked (Vector.replicate 25 0) := by
  intro a; simp

theorem filterInRange_zero : filterInRange { vhp := 0, vbp := 0, vlp := 0 } = true := by decide

theorem histCanonical_nil : histCanonical [] := by decide

/-- Every voice after POWER_ON: the gate bit and the snapshots are 0, the stage is RELEASE (R321). -/
theorem voicePowerOn_legal (v : VoiceId) : snapshotCurrent voicePowerOn ∧ envelopeLegal (Vector.replicate 25 0) v voicePowerOn := by
  revert v; decide

/-- POWER_ON makes the invariant true of everything but the counter and the rates, which it keeps (R321). -/
theorem powerOn_inv {c : Config.Tables} {e : Engine} (hcyc : cycInRange c e) (hclk : 0 < e.samp.clk) (hout : 0 < e.samp.out) :
    (powerOn e).InvUnder c := by
  refine ⟨hcyc, ⟨by simp, by simp⟩, regsMasked_zero, fun v => ?_, fun v => ?_, filterInRange_zero, ⟨hclk, hout, hclk⟩,
    histCanonical_nil⟩
  · simpa using (voicePowerOn_legal v).1
  · simpa using (voicePowerOn_legal v).2

theorem cycleMax_nonneg (c : Config.Tables) : 0 ≤ cycleMax c := by
  have h : (0 : Int) < 2 ^ (c.cycleBits - 1) := by positivity
  unfold cycleMax
  omega

/-- A valid configuration has positive rates (R102). -/
theorem validSampling_pos {method : BitVec 3} {clk out : Int} {pass : Option Int} {k : SamplingConfig}
    (h : validSampling method clk out pass = some k) : 0 < k.clk ∧ 0 < k.out := by
  obtain ⟨m, -, hclk, hout, rfl⟩ := validSampling_some.1 h
  exact ⟨by simpa using hclk, by simpa using hout⟩

theorem construct_inv (c : Config.Tables) (m : ChipModel) {k : SamplingConfig} (hclk : 0 < k.clk) (hout : 0 < k.out) :
    (construct m k).InvUnder c :=
  powerOn_inv ⟨le_rfl, cycleMax_nonneg c⟩ hclk hout

/-- Storing a configuration with positive rates and resetting the resampler keeps the invariant (R103, R322). -/
theorem resamplerReset_inv {c : Config.Tables} {e : Engine} (h : e.InvUnder c) {k : SamplingConfig} (hclk : 0 < k.clk)
    (hout : 0 < k.out) : (resamplerReset { e with samp := k }).InvUnder c := by
  obtain ⟨hcyc, hq, hreg, hsnap, henv, hfil, -, -⟩ := h
  exact ⟨hcyc, hq, hreg, hsnap, henv, hfil, ⟨hclk, hout, hclk⟩, histCanonical_nil⟩

section
variable {c : Config.Tables} {s u : State}

theorem execNew_inv {model : BitVec 2} {method : BitVec 3} {clk out : Int} {pass : Option Int} (hi : s.InvUnder c)
    (h : execNew model method clk out pass s = .next u) : u.InvUnder c := by
  obtain ⟨-, ⟨m, k, -, hk, rfl⟩ | ⟨-, rfl⟩⟩ := execNew_next h
  · obtain ⟨hclk, hout⟩ := validSampling_pos hk
    exact construct_inv c m hclk hout
  · exact hi

theorem execSetSampling_inv {method : BitVec 3} {clk out : Int} {pass : Option Int} (hi : s.InvUnder c)
    (h : execSetSampling method clk out pass s = .next u) : u.InvUnder c := by
  obtain ⟨e, he, ⟨k, hk, rfl⟩ | ⟨-, rfl⟩⟩ := execSetSampling_next h
  · obtain ⟨hclk, hout⟩ := validSampling_pos hk
    exact resamplerReset_inv ((invUnder_running he).1 hi) hclk hout
  · exact hi

theorem execReset_inv (hi : s.InvUnder c) (h : execReset s = .next u) : u.InvUnder c := by
  obtain ⟨e, he, hk⟩ := onRunning_next h
  obtain rfl := Host.Outcome.next.inj hk
  obtain ⟨hcyc, -, -, -, -, -, ⟨hclk, hout, -⟩, -⟩ := (invUnder_running he).1 hi
  exact powerOn_inv hcyc hclk hout

theorem writeCommand_inv {addr value stamp : Int} (hi : s.InvUnder c) (h : writeCommand c addr value stamp s = .next u) :
    u.InvUnder c := by
  obtain ⟨e, he, ⟨-, rfl⟩ | ⟨a, -, hmax, -, rfl⟩⟩ := writeCommand_next h
  · exact hi
  · exact scheduleWrite_inv ((invUnder_running he).1 hi) a value hmax

theorem readCommand_inv {addr : Int} (hi : s.InvUnder c) (h : readCommand addr s = .next u) : u.InvUnder c := by
  obtain ⟨e, -, ⟨-, rfl⟩ | ⟨a, -, rfl⟩⟩ := readCommand_next h
  · exact hi
  · exact hi

theorem clockCommand_inv (hc : ∀ level, c.expPeriod level ≤ 30) {n : Int} (hi : s.InvUnder c)
    (h : clockCommand c n s = .next u) : u.InvUnder c := by
  obtain ⟨e, e1, ss, he, hmax, hr, rfl⟩ := clockCommand_next h
  exact runCycles_inv hc ((invUnder_running he).1 hi) (by simpa using hmax) hr

/-- Every instruction keeps the invariant, under every record with no period above 30. -/
theorem execUnder_inv (hc : ∀ level, c.expPeriod level ≤ 30) {i : Instr} (hi : s.InvUnder c) (h : execUnder c i s = .next u) :
    u.InvUnder c := by
  cases i with
  | new => exact execNew_inv hi h
  | setSampling => exact execSetSampling_inv hi h
  | reset => exact execReset_inv hi h
  | read => exact readCommand_inv hi h
  | readOutOfRange => exact readCommand_inv hi h
  | clock => exact clockCommand_inv hc hi h
  | reserved => obtain rfl := Host.Outcome.next.inj h; exact hi
  | writeOutOfRange => exact writeCommand_inv hi h
  | _ => exact writeCommand_inv hi ((execUnder_registerWrite rfl c s).symm.trans h)

theorem stepUnder_inv (hc : ∀ level, c.expPeriod level ≤ 30) (hi : s.InvUnder c) (h : stepUnder c s = .next u) : u.InvUnder c := by
  obtain ⟨w, rest, -, hx⟩ := stepUnder_next h
  exact execUnder_inv hc (s := { s with inbox := rest }) hi hx

end

/-! ### The obligations -/

/-- Settles O58: the invariant is carried through one command by `execUnder_inv`. -/
theorem everyStepUnderAnyRecordKeepsTheInvariant : Obligations.EveryStepUnderAnyRecordKeepsTheInvariant :=
  fun _ _ _ hc hi h => stepUnder_inv hc hi h

/-- Settles O57: the two agreements at `tables`, and the step read off its inbox. -/
theorem execIsTheMachineOfItsRecord : Obligations.ExecIsTheMachineOfItsRecord :=
  ⟨execUnder_tables, stepUnder_tables, fun c _ _ _ h => stepUnder_of_inbox_cons c h⟩

end Sys2Proof.Machine
end

/-! SUPPORT. The state of a running engine: the invariant from the start on, the decoded views as numbers, the history after one cycle
step, and what no command changes in an engine. -/

namespace Sys2Proof.Machine

/-! ### The invariant, at the start and under every step -/

/-- No level has a period above 30 (R192). -/
theorem expPeriod_le (level : BitVec 8) : expPeriod level ≤ 30 := by
  unfold expPeriod
  dsimp only
  split_ifs <;> omega

/-- Before NEW there is no engine to speak of, and the invariant holds (R20). -/
theorem invUnder_unconstructed (c : Config.Tables) {s : State} (h : s.inst = .unconstructed) : s.InvUnder c := by
  unfold State.InvUnder
  rw [h]
  trivial

/-- Settles O55: the step is the one under the record `tables`, whose periods are at most 30. -/
theorem everyStepKeepsTheInvariant : Obligations.EveryStepKeepsTheInvariant :=
  fun s _ hi h => stepUnder_inv expPeriod_le hi ((stepUnder_tables s).trans h)

/-- Settles O54: before NEW there is no engine, and NEW keeps the invariant. -/
theorem startMeetsTheInvariant : Obligations.StartMeetsTheInvariant :=
  ⟨invUnder_unconstructed tables rfl, fun _ _ _ _ _ _ _ hs h => execNew_inv (invUnder_unconstructed tables hs) h⟩

/-! ### The decoded views as numbers -/

/-- Bit `i` of a vector is the parity of the number shifted down by `i`. -/
theorem getLsbD_iff_div_mod {n : Nat} (x : BitVec n) (i : Nat) : x.getLsbD i = true ↔ x.toNat / 2 ^ i % 2 = 1 := by
  rw [BitVec.getLsbD, Nat.testBit_eq_decide_div_mod_eq, decide_eq_true_iff]

/-- A concatenation as a number: the high part weighs two to the width of the low part. -/
theorem toNat_append_eq_add {m n : Nat} (x : BitVec m) (y : BitVec n) : (x ++ y).toNat = 2 ^ n * x.toNat + y.toNat := by
  rw [BitVec.toNat_append, ← Nat.shiftLeft_add_eq_or_of_lt y.isLt, Nat.shiftLeft_eq, Nat.mul_comm]

/-- The low bits of a vector as a number. -/
theorem toNat_low_bits {n : Nat} (x : BitVec n) (k : Nat) : (x.extractLsb' 0 k).toNat = x.toNat % 2 ^ k := by
  rw [BitVec.extractLsb'_toNat, Nat.shiftRight_zero]

/-- The high nibble of a byte as a number. -/
theorem toNat_high_nibble (x : Byte) : (x.extractLsb' 4 4).toNat = x.toNat / 16 := by
  have hx := x.isLt
  rw [BitVec.extractLsb'_toNat, Nat.shiftRight_eq_div_pow]
  omega

section
variable (r : RegFile) (v : VoiceId)

theorem freq_toNat : (freq r v).toNat = 256 * (voiceReg r v 1).toNat + (voiceReg r v 0).toNat := toNat_append_eq_add ..

theorem pulseWidth_toNat : (pulseWidth r v).toNat = 256 * ((voiceReg r v 3).toNat % 16) + (voiceReg r v 2).toNat := by
  rw [pulseWidth, toNat_append_eq_add, toNat_low_bits]
  rfl

theorem cutoff_toNat : (cutoff r).toNat = 8 * r[22].toNat + r[21].toNat % 8 := by
  rw [cutoff, toNat_append_eq_add, toNat_low_bits]
  rfl

/-- The gate is bit 0 of the control register (R26). -/
theorem gate_iff_odd : gate r v = true ↔ (voiceReg r v 4).toNat % 2 = 1 := by
  rw [gate, controlByte, getLsbD_iff_div_mod, pow_zero, Nat.div_one]

end

/-- Settles O34: each view is a concatenation, a nibble or a bit of the registers at its address. -/
theorem decodedViewsReadTheirBits : Obligations.DecodedViewsReadTheirBits := by
  refine ⟨fun r v => ?_, fun r => ?_⟩
  · exact ⟨freq_toNat r v, pulseWidth_toNat r v, toNat_high_nibble _, gate_iff_odd r v, getLsbD_iff_div_mod _ 1,
      getLsbD_iff_div_mod _ 2, getLsbD_iff_div_mod _ 3, toNat_high_nibble _, toNat_low_bits _ 4, toNat_high_nibble _,
      toNat_low_bits _ 4, getLsbD_iff_div_mod _ v.val, fun _ => rfl⟩
  · exact ⟨cutoff_toNat r, toNat_high_nibble _, getLsbD_iff_div_mod _ 3, toNat_low_bits _ 4, getLsbD_iff_div_mod _ 4,
      getLsbD_iff_div_mod _ 5, getLsbD_iff_div_mod _ 6, getLsbD_iff_div_mod _ 7⟩

/-! ### The history after one cycle step -/

/-- Beyond its list a history reads 0 (R47). -/
theorem histAt_of_length_le {h : List Sample} {j : Nat} (hj : h.length ≤ j) : histAt h j = 0 := by
  unfold histAt
  rw [List.getD_eq_getElem?_getD, List.getElem?_eq_none hj, Option.getD_none]

/-- A cycle step pushes its sample, the next step's `y_prev`, onto the history (R263, R272). -/
theorem cycle_hist {t : Config.Tables} {e e1 : Engine} {ss : List Sample} (h : cycle t e = .ok (e1, ss)) :
    e1.resampler.hist = pushHistory e1.resampler.yPrev e.resampler.hist := by
  obtain ⟨-, rfl, -⟩ := cycle_ok h
  obtain ⟨-, -, -, -, -, hres⟩ := applyDue_frame { (resampleStep t (pipeline t e).1 (pipeline t e).2).1 with cyc := e.cyc + 1 }
  rw [hres, resampleStep_eq]
  simp

/-- CLOCK of one cycle is one cycle step (R107). -/
theorem exec_clock_one_next {s t : State} {e e1 : Engine} (hs : s.inst = .running e) (h : exec (.clock 1) s = .next t)
    (ht : t.inst = .running e1) : ∃ ss, cycle tables e = .ok (e1, ss) := by
  rw [exec_clock] at h
  obtain ⟨e', e2, ss, he, -, hr, rfl⟩ := clockCommand_next h
  obtain rfl := Instance.running.inj (hs.symm.trans he)
  obtain rfl := Instance.running.inj ht
  obtain ⟨e3, ss1, ss2, hc, hrest, -⟩ := runCycles_succ_ok hr
  obtain ⟨rfl, -⟩ := Prod.mk.inj (Except.ok.inj hrest)
  exact ⟨ss1, hc⟩

/-- Settles O50: the history after the step is the pushed one, read by the rules of `pushHistory`. -/
theorem historyShiftsByOne : Obligations.HistoryShiftsByOne := by
  intro s t e e1 hs h ht
  obtain ⟨ss, hc⟩ := exec_clock_one_next hs h ht
  rw [cycle_hist hc]
  obtain ⟨hlen, -⟩ := pushHistory_canonical e1.resampler.yPrev e.resampler.hist
  exact ⟨histAt_pushHistory_zero .., fun j hj => histAt_pushHistory_succ _ _ hj, fun j hj => histAt_of_length_le (hlen.trans hj)⟩

/-! ### What no command changes in a running engine -/

/-- The engine `e1` that the command `i` makes of `e` is still the same engine: what O56 says of the two. -/
def Engine.SameAfter (i : Instr) (e e1 : Engine) : Prop :=
  e1.model = e.model ∧ (e1.samp = e.samp ∨ i.mnemonic = "SETSAMPLING") ∧ (∀ n, i = .clock n → e1.cyc = e.cyc + max n 0) ∧
    (i.mnemonic ≠ "CLOCK" → e1.cyc = e.cyc) ∧ e1.diag.underrun = e.diag.underrun ∧
    (e1.diag.nmw = true ↔ e.diag.nmw = true ∨ ∃ a value stamp, i.registerWrite = some (a, value, stamp) ∧ stamp < e.cyc)

/-- A command that writes no register and is no CLOCK leaves the same engine if it keeps model, counter and flags. -/
theorem sameAfter_of_quiet {i : Instr} {e e1 : Engine} (hw : i.registerWrite = none) (hc : ∀ n, i ≠ .clock n)
    (hmodel : e1.model = e.model) (hsamp : e1.samp = e.samp ∨ i.mnemonic = "SETSAMPLING") (hcyc : e1.cyc = e.cyc)
    (hdiag : e1.diag = e.diag) : e.SameAfter i e1 :=
  ⟨hmodel, hsamp, fun n hn => absurd hn (hc n), fun _ => hcyc, by rw [hdiag], by simp [hdiag, hw]⟩

/-- A run of cycle steps advances the counter by their number, and leaves model, configuration and flags (R34, R36, R52). -/
theorem runCycles_frame {t : Config.Tables} {n : Nat} {e e1 : Engine} {ss : List Sample} (h : runCycles t n e = .ok (e1, ss)) :
    e1.model = e.model ∧ e1.samp = e.samp ∧ e1.cyc = e.cyc + n ∧ e1.diag = e.diag := by
  induction n generalizing e ss with
  | zero =>
    obtain ⟨rfl, -⟩ := Prod.mk.inj (Except.ok.inj h)
    simp
  | succ n ih =>
    obtain ⟨e2, ss1, ss2, hc, hr, -⟩ := runCycles_succ_ok h
    obtain ⟨hmodel, hsamp, hcyc, hdiag, -⟩ := cycle_frame hc
    obtain ⟨hmodel', hsamp', hcyc', hdiag'⟩ := ih hr
    exact ⟨hmodel'.trans hmodel, hsamp'.trans hsamp, by push_cast; omega, hdiag'.trans hdiag⟩

theorem sameAfter_clock {t : Config.Tables} {n : Int} {e e1 : Engine} {ss : List Sample}
    (h : runCycles t n.toNat e = .ok (e1, ss)) : e.SameAfter (.clock n) e1 := by
  obtain ⟨hmodel, hsamp, hcyc, hdiag⟩ := runCycles_frame h
  refine ⟨hmodel, .inl hsamp, ?_, fun hn => absurd rfl hn, by rw [hdiag], by simp [hdiag, Instr.registerWrite]⟩
  rintro m hm
  obtain rfl := Instr.clock.inj hm
  rw [hcyc, Int.ofNat_toNat]

/-- What a WRITE in range never changes, and when it sets the flag of a late write (R105, R301). -/
theorem scheduleWrite_frame (a : RegAddr) (value stamp : Int) (e : Engine) :
    (scheduleWrite a value stamp e).model = e.model ∧ (scheduleWrite a value stamp e).samp = e.samp ∧
      (scheduleWrite a value stamp e).cyc = e.cyc ∧ (scheduleWrite a value stamp e).diag.underrun = e.diag.underrun ∧
      ((scheduleWrite a value stamp e).diag.nmw = true ↔ e.diag.nmw = true ∨ stamp < e.cyc) := by
  obtain ⟨hlt, hw⟩ | ⟨heq, hw⟩ | ⟨hgt, hw⟩ := scheduleWrite_cases a value stamp e
  · rw [hw]; simp [hlt]
  · rw [hw]; simp [heq]
  · rw [hw]; simp [hgt.le]

theorem sameAfter_scheduleWrite {i : Instr} {a : RegAddr} {value stamp : Int} (h : i.registerWrite = some (a, value, stamp))
    (e : Engine) : e.SameAfter i (scheduleWrite a value stamp e) := by
  obtain ⟨hmodel, hsamp, hcyc, hunder, hnmw⟩ := scheduleWrite_frame a value stamp e
  refine ⟨hmodel, .inl hsamp, ?_, fun _ => hcyc, hunder, ?_⟩
  · rintro n rfl; cases h
  · rw [hnmw, h]; simp

/-- A command that touches neither engine nor inbox, and is neither a register form of WRITE nor CLOCK, leaves the same engine. -/
theorem sameEngine_of_untouched {i : Instr} {s t : State} {e : Engine} (hs : s.inst = .running e) (hinst : t.inst = s.inst)
    (hinbox : t.inbox = s.inbox) (hw : i.registerWrite = none) (hc : ∀ n, i ≠ .clock n) :
    ∃ e1, t.inst = .running e1 ∧ t.inbox = s.inbox ∧ e.SameAfter i e1 :=
  ⟨e, hinst.trans hs, hinbox, sameAfter_of_quiet hw hc rfl (.inl rfl) rfl rfl⟩

/-- READ changes the response only (R106). -/
theorem readCommand_frame {addr : Int} {s t : State} (h : readCommand addr s = .next t) : t.inst = s.inst ∧ t.inbox = s.inbox := by
  obtain ⟨-, -, ⟨-, rfl⟩ | ⟨a, -, rfl⟩⟩ := readCommand_next h
  · exact ⟨rfl, rfl⟩
  · exact ⟨rfl, rfl⟩

/-- A register form of WRITE leaves the same engine. -/
theorem sameEngine_of_registerWrite {i : Instr} {a : RegAddr} {value stamp : Int} (hw : i.registerWrite = some (a, value, stamp))
    {s t : State} {e : Engine} (hs : s.inst = .running e) (h : exec i s = .next t) :
    ∃ e1, t.inst = .running e1 ∧ t.inbox = s.inbox ∧ e.SameAfter i e1 := by
  rw [exec_registerWrite hw] at h
  obtain ⟨e', he, ⟨hno, -⟩ | ⟨b, hb, -, -, rfl⟩⟩ := writeCommand_next h
  · have := a.isLt; omega
  · obtain rfl := Instance.running.inj (hs.symm.trans he)
    obtain rfl : a = b := Fin.ext (by omega)
    exact ⟨_, rfl, rfl, sameAfter_scheduleWrite hw e⟩

/-- Settles O56: command by command, the engine after it is the same one. -/
theorem runningEngineKeepsItsIdentity : Obligations.RunningEngineKeepsItsIdentity := by
  intro i s t e hs h hrange
  cases i with
  | new model method clk out pass =>
    obtain ⟨hno, -⟩ := execNew_next h
    rw [hs] at hno; cases hno
  | setSampling method clk out pass =>
    obtain ⟨e', he, ⟨c, -, rfl⟩ | ⟨-, rfl⟩⟩ := execSetSampling_next h
    · obtain rfl := Instance.running.inj (hs.symm.trans he)
      exact ⟨_, rfl, rfl, sameAfter_of_quiet rfl nofun rfl (.inr rfl) rfl rfl⟩
    · exact sameEngine_of_untouched hs rfl rfl rfl nofun
  | reset =>
    obtain ⟨e', he, hk⟩ := onRunning_next h
    obtain rfl := Instance.running.inj (hs.symm.trans he)
    obtain rfl := Host.Outcome.next.inj hk
    exact ⟨_, rfl, rfl, sameAfter_of_quiet rfl nofun rfl (.inl rfl) rfl rfl⟩
  | writeOutOfRange addr value stamp =>
    have hu := writeCommand_nowhere hs tables value stamp (hrange addr value stamp rfl)
    obtain rfl := Host.Outcome.next.inj (hu.symm.trans h)
    exact sameEngine_of_untouched hs rfl rfl rfl nofun
  | read addr =>
    obtain ⟨hinst, hinbox⟩ := readCommand_frame h
    exact sameEngine_of_untouched hs hinst hinbox rfl nofun
  | readOutOfRange addr =>
    obtain ⟨hinst, hinbox⟩ := readCommand_frame h
    exact sameEngine_of_untouched hs hinst hinbox rfl nofun
  | clock n =>
    obtain ⟨e', e1, ss, he, -, hr, rfl⟩ := clockCommand_next h
    obtain rfl := Instance.running.inj (hs.symm.trans he)
    exact ⟨e1, rfl, rfl, sameAfter_clock hr⟩
  | reserved w =>
    obtain rfl := Host.Outcome.next.inj h
    exact sameEngine_of_untouched hs rfl rfl rfl nofun
  | _ => exact sameEngine_of_registerWrite rfl hs h

end Sys2Proof.Machine


/-! SUPPORT. The registers as memory: what READ answers, the byte a WRITE stores as a number, and that a WRITE whose effect has already
taken place leaves the engine alone. -/

namespace Sys2Proof.Machine

/-! ### READ -/

/-- READ of a register on a running engine (R106). -/
theorem readCommand_register {s : State} {e : Engine} (h : s.inst = .running e) (a : RegAddr) :
    readCommand a.val s = .next (respond s { status := 0, data := readReg e a, samples := [] }) := by
  simp [readCommand, h]

/-- READ of an address that selects nothing (R65, R106). -/
theorem readCommand_nowhere {s : State} {e : Engine} (h : s.inst = .running e) {addr : Int} (ha : addr < 0 ∨ 24 < addr) :
    readCommand addr s = .next (takeError .invalidRegisterAddress s) := by
  simp [readCommand, h, registerAt_none.2 ha]

/-- Settles O15: both rows of READ are `readCommand`, in range and out of range. -/
theorem readReturnsTheRegister : Obligations.ReadReturnsTheRegister :=
  fun _ _ hs => ⟨readCommand_register hs, fun _ ha => ⟨readCommand_nowhere hs ha, readCommand_nowhere hs ha⟩⟩

/-! ### The byte a WRITE stores -/

/-- The low byte of an integer is the integer modulo 256 (R23). -/
theorem ofInt_byte_eq_mod (value : Int) : BitVec.ofInt 8 value = BitVec.ofNat 8 (value % 256).toNat := by
  apply BitVec.eq_of_toNat_eq
  rw [BitVec.toNat_ofInt, BitVec.toNat_ofNat]
  omega

/-- The masks by register number: `PW_HI` keeps four bits, `FC_LO` three, every other register all eight (R23). -/
theorem mask_eq_by_number (a : RegAddr) :
    mask a = if a.val = 3 ∨ a.val = 10 ∨ a.val = 17 then 0x0F#8 else if a.val = 21 then 0x07#8 else 0xFF#8 := by
  revert a; decide

theorem maskedValue_eq_mod_and_mask (a : RegAddr) (value : Int) :
    maskedValue a value = BitVec.ofNat 8 (value % 256).toNat &&&
      (if a.val = 3 ∨ a.val = 10 ∨ a.val = 17 then 0x0F#8 else if a.val = 21 then 0x07#8 else 0xFF#8) := by
  rw [maskedValue, ofInt_byte_eq_mod, mask_eq_by_number]

/-! ### A write that is due -/

theorem readReg_applyWrite_self (a : RegAddr) (value : Int) (e : Engine) :
    readReg (applyWrite a value e) a = maskedValue a value := by
  simp [readReg]

/-- A WRITE that is due, clamped or not, is stored at once (R105). -/
theorem readReg_scheduleWrite_of_due (a : RegAddr) (value : Int) {stamp : Int} {e : Engine} (h : stamp ≤ e.cyc) :
    readReg (scheduleWrite a value stamp e) a = maskedValue a value := by
  obtain ⟨-, hw⟩ | ⟨-, hw⟩ | ⟨hgt, -⟩ := scheduleWrite_cases a value stamp e
  · rw [hw, readReg_applyWrite_self]
  · rw [hw, readReg_applyWrite_self]
  · omega

/-- Settles O16: the due WRITE stores the masked byte, and READ of the same address answers it. -/
theorem writtenRegisterReadsBack : Obligations.WrittenRegisterReadsBack := by
  intro i a value stamp s e hi hs hdue hmax
  have hwrite := (exec_registerWrite hi s).trans (writeCommand_register hs a value stamp (hdue.trans hmax))
  refine ⟨_, _, hwrite, readCommand_register (finish_inst ..) a, ?_⟩
  rw [respond_response, readReg_scheduleWrite_of_due a value hdue, maskedValue_eq_mod_and_mask]

/-! ### A write of what is already there -/

theorem writeReg_readReg_self (e : Engine) (a : RegAddr) : writeReg e a (readReg e a) = e := by
  simp [writeReg, readReg]

theorem modifyVoice_of_fixed {e : Engine} {v : VoiceId} {f : Voice → Voice} (h : f e.voices[v] = e.voices[v]) :
    modifyVoice e v f = e := by
  rw [modifyVoice, h]
  simp

/-- A gate that does not change has no edge (R121). -/
theorem gateEdge_same (b : Bool) (x : Voice) : gateEdge b b x = x := by
  simp [gateEdge, rises, falls]

/-- A TEST bit that does not change has no edge (R122). -/
theorem testEdge_same (b : Bool) (x : Voice) : testEdge b b x = x := by
  simp [testEdge, falls]

/-- APPLY of the byte the register already holds changes nothing: the register stays, and no bit has an edge (R66, R120). -/
theorem applyWrite_of_readReg_eq {a : RegAddr} {value : Int} {e : Engine} (h : readReg e a = maskedValue a value) :
    applyWrite a value e = e := by
  unfold applyWrite
  dsimp only
  rw [← h, writeReg_readReg_self]
  split
  · rfl
  · exact modifyVoice_of_fixed (by rw [gateEdge_same, testEdge_same])

/-- The flag of a late write is sticky: raising it again changes nothing (R52). -/
theorem raiseFlag_nmw_of_raised {e : Engine} (h : e.diag.nmw = true) : raiseFlag .nonMonotonicCycleWrite e = e := by
  simp [raiseFlag, ← h]

/-- A due WRITE has no effect when its byte is already stored and, if it is late, its flag already raised. -/
theorem scheduleWrite_of_effected {a : RegAddr} {value stamp : Int} {e : Engine} (hdue : stamp ≤ e.cyc)
    (hreg : readReg e a = maskedValue a value) (hflag : stamp < e.cyc → e.diag.nmw = true) :
    scheduleWrite a value stamp e = e := by
  obtain ⟨hlt, hw⟩ | ⟨-, hw⟩ | ⟨hgt, -⟩ := scheduleWrite_cases a value stamp e
  · rw [hw, raiseFlag_nmw_of_raised (hflag hlt), applyWrite_of_readReg_eq hreg]
  · rw [hw, applyWrite_of_readReg_eq hreg]
  · omega

/-- A due WRITE repeated does what it did once (R66). -/
theorem scheduleWrite_idem_of_due (a : RegAddr) (value : Int) {stamp : Int} {e : Engine} (hdue : stamp ≤ e.cyc) :
    scheduleWrite a value stamp (scheduleWrite a value stamp e) = scheduleWrite a value stamp e := by
  obtain ⟨-, -, hcyc, -, hnmw⟩ := scheduleWrite_frame a value stamp e
  refine scheduleWrite_of_effected (hcyc ▸ hdue) (readReg_scheduleWrite_of_due a value hdue) fun hlt => ?_
  exact hnmw.2 (.inr (hcyc ▸ hlt))

/-- Settles O18: the second WRITE finds the engine of the first, on which it is idempotent. -/
theorem repeatedDueWriteChangesNothing : Obligations.RepeatedDueWriteChangesNothing := by
  intro i a value stamp s t e hi hs hdue h
  have hmax : stamp ≤ 9223372036854775807 := by
    rw [exec_registerWrite hi] at h
    obtain ⟨-, -, ⟨hno, -⟩ | ⟨-, -, hle, -, -⟩⟩ := writeCommand_next h
    · have := a.isLt; omega
    · rwa [cycleMax_tables] at hle
  have hexec {x : State} {e' : Engine} (hx : x.inst = .running e') :=
    (exec_registerWrite hi x).trans (writeCommand_register hx a value stamp hmax)
  obtain rfl := Host.Outcome.next.inj ((hexec hs).symm.trans h)
  rw [hexec (finish_inst ..), scheduleWrite_idem_of_due a value hdue]
  rfl

end Sys2Proof.Machine


/-! SUPPORT. The command word: which words decode to which instruction, format by format (`DecodesAs`), and from it the round trip
between decoder and encoder, the first matching row of the opcode table, and the reserved words as numbers. -/

namespace Sys2Proof

/-! ### Operands and their fields -/

theorem fitsSigned_iff {n : Nat} {x : Int} : fitsSigned n x = true ↔ -2 ^ n ≤ x ∧ x < 2 ^ n := by
  simp [fitsSigned]

theorem fitsUnsigned_iff {n : Nat} {x : Int} : fitsUnsigned n x = true ↔ 0 ≤ x ∧ x < 2 ^ n := by
  simp [fitsUnsigned]

theorem fitsWrite_iff {value stamp : Int} :
    fitsWrite value stamp = true ↔ fitsUnsigned 24 value = true ∧ fitsSigned 63 stamp = true := by
  simp [fitsWrite]

/-- A signed field gives back the operand that fits it (R85). -/
theorem toInt_ofInt_of_fitsSigned {n : Nat} {x : Int} (h : fitsSigned n x = true) : (BitVec.ofInt (n + 1) x).toInt = x := by
  obtain ⟨hlo, hhi⟩ := fitsSigned_iff.1 h
  exact BitVec.toInt_ofInt_eq_self n.succ_pos hlo hhi

/-- A signed field holds an operand that fits it (R85). -/
theorem fitsSigned_toInt {n : Nat} (x : BitVec (n + 1)) : fitsSigned n x.toInt = true :=
  fitsSigned_iff.2 ⟨x.le_toInt, BitVec.toInt_lt⟩

/-- An unsigned field gives back the operand that fits it (R85). -/
theorem toNat_ofInt_of_fitsUnsigned {n : Nat} {x : Int} (h : fitsUnsigned n x = true) : ((BitVec.ofInt n x).toNat : Int) = x := by
  obtain ⟨hlo, hhi⟩ := fitsUnsigned_iff.1 h
  rw [BitVec.toNat_ofInt, Int.emod_eq_of_lt hlo (by exact_mod_cast hhi), Int.toNat_of_nonneg hlo]

/-- An unsigned field holds an operand that fits it (R85). -/
theorem fitsUnsigned_toNat {n : Nat} (x : BitVec n) : fitsUnsigned n x.toNat = true :=
  fitsUnsigned_iff.2 ⟨Int.natCast_nonneg _, by exact_mod_cast x.isLt⟩

/-- The word of an unsigned field's number is the field. -/
theorem ofInt_toNat {n : Nat} (x : BitVec n) : BitVec.ofInt n (x.toNat : Int) = x := by
  rw [BitVec.ofInt_natCast, BitVec.ofNat_toNat, BitVec.setWidth_eq]

/-! ### The rows of WRITE -/

/-- The register forms are the rows of WRITE at the 25 addresses. -/
theorem registerWrite_writeRow (a : RegAddr) (value stamp : Int) :
    (writeRow a.val value stamp).registerWrite = some (a, value, stamp) := by
  fin_cases a <;> rfl

theorem eq_writeRow_of_registerWrite {i : Instr} {a : RegAddr} {value stamp : Int} (h : i.registerWrite = some (a, value, stamp)) :
    i = writeRow a.val value stamp := by
  cases i <;> simp only [Instr.registerWrite, Option.some.injEq, Prod.mk.injEq, reduceCtorEq] at h <;>
    obtain ⟨rfl, rfl, rfl⟩ := h <;> rfl

theorem writeRow_of_le {n : Nat} (h : 25 ≤ n) (value stamp : Int) : writeRow n value stamp = .writeOutOfRange n value stamp := by
  obtain ⟨k, rfl⟩ := Nat.exists_eq_add_of_le' h
  rfl

/-- A row of WRITE is the register form at an address below 25 or WRITE.OUT_OF_RANGE at one from 25 on (R87). -/
theorem writeRow_cases (n : Nat) : (∃ a : RegAddr, n = a.val) ∨ 25 ≤ n := by
  rcases Nat.lt_or_ge n 25 with h | h
  · exact .inl ⟨⟨n, h⟩, rfl⟩
  · exact .inr h

theorem encode_writeRow (n : Nat) (value stamp : Int) : encode (writeRow n value stamp) = encodeWrite n value stamp := by
  unfold writeRow
  split <;> rfl

theorem wf_of_registerWrite {i : Instr} {a : RegAddr} {value stamp : Int} (h : i.registerWrite = some (a, value, stamp)) :
    i.wf = fitsWrite value stamp := by
  cases i <;> simp only [Instr.registerWrite, Option.some.injEq, Prod.mk.injEq, reduceCtorEq] at h <;>
    obtain ⟨-, rfl, rfl⟩ := h <;> rfl

/-- A row of WRITE at an address `ADDR` can carry is well-formed when its value and stamp are (R82). -/
theorem wf_writeRow {n : Nat} (hn : n ≤ 255) {value stamp : Int} (h : fitsWrite value stamp = true) :
    (writeRow n value stamp).wf = true := by
  obtain ⟨a, rfl⟩ | h25 := writeRow_cases n
  · rw [wf_of_registerWrite (registerWrite_writeRow a value stamp), h]
  · rw [writeRow_of_le h25]
    simp only [Instr.wf, h, Bool.and_true, Bool.and_eq_true, decide_eq_true_eq]
    omega

/-- The mnemonic of a WRITE depends on its address alone. -/
theorem mnemonic_writeRow (n : Nat) (value stamp : Int) : (writeRow n value stamp).mnemonic = (writeRow n 0 0).mnemonic := by
  unfold writeRow
  split <;> rfl

/-! ### The rows of READ -/

theorem encode_readRow (n : Nat) : encode (readRow n) = encodeRead n := by
  unfold readRow
  split <;> rfl

theorem wf_readRow {n : Nat} (hn : n ≤ 255) : (readRow n).wf = true := by
  unfold readRow
  split
  · simpa [Instr.wf] using (by assumption : n ≤ 24)
  · simp only [Instr.wf, Bool.and_eq_true, decide_eq_true_eq]
    omega

/-! ### The word put together from its fields -/

theorem word_is_field (w : CmdWord) : cwField w 0 128 = w := field_all w

/-- Formats N and S (R82). -/
theorem word_format_n (w : CmdWord) :
    cwField w 124 4 ++ cwField w 122 2 ++ cwField w 119 3 ++ cwField w 118 1 ++ cwField w 96 22 ++ cwField w 64 32 ++
      cwField w 32 32 ++ cwField w 0 32 = w := by
  rw [append_fields w 122 4 2, append_fields w 119 6 3, append_fields w 118 9 1, append_fields w 96 10 22,
    append_fields w 64 32 32, append_fields w 32 64 32, append_fields w 0 96 32, word_is_field]

/-- Format W (R82). -/
theorem word_format_w (w : CmdWord) :
    cwField w 124 4 ++ cwField w 116 8 ++ cwField w 92 24 ++ cwField w 64 28 ++ cwField w 0 64 = w := by
  rw [append_fields w 116 4 8, append_fields w 92 12 24, append_fields w 64 36 28, append_fields w 0 64 64, word_is_field]

/-- Format R (R82). -/
theorem word_format_r (w : CmdWord) : cwField w 124 4 ++ cwField w 116 8 ++ cwField w 0 116 = w := by
  rw [append_fields w 116 4 8, append_fields w 0 12 116, word_is_field]

/-- Format K (R82). -/
theorem word_format_k (w : CmdWord) : cwField w 124 4 ++ cwField w 64 60 ++ cwField w 0 64 = w := by
  rw [append_fields w 64 4 60, append_fields w 0 64 64, word_is_field]

/-- Format Z (R82). -/
theorem word_format_z (w : CmdWord) : cwField w 124 4 ++ cwField w 0 124 = w := by
  rw [append_fields w 0 4 124, word_is_field]

theorem fields_format_z (op : BitVec 4) (z : BitVec 124) : cwField (op ++ z) 124 4 = op ∧ cwField (op ++ z) 0 124 = z :=
  ⟨by rw [cwField, (field_of_append op z 0 4).1, field_all], by rw [cwField, (field_of_append op z 0 124).2 le_rfl, field_all]⟩

/-! ### The pass-band operand -/

theorem passOk_iff {w : CmdWord} : passOk w = true ↔ cwField w 118 1 = 1#1 ∨ cwField w 0 32 = 0#32 := by
  simp [passOk]

theorem fitsPass_decodePass (w : CmdWord) : fitsPass (decodePass w) = true := by
  unfold decodePass
  split
  · exact fitsSigned_toInt _
  · rfl

/-- With `PASS` 0 when `PBEN` is 0, the two fields are those of the operand they decode to (R82, R85). -/
theorem encodePass_decodePass {w : CmdWord} (h : passOk w = true) :
    encodePass (decodePass w) = (cwField w 118 1, cwField w 0 32) := by
  by_cases hp : cwField w 118 1 = 1#1
  · rw [decodePass, if_pos hp, encodePass, BitVec.ofInt_toInt, hp]
  · have hpben : cwField w 118 1 = 0#1 := by
      revert hp
      generalize cwField w 118 1 = p
      revert p
      decide
    rw [decodePass, if_neg hp, encodePass, hpben, (passOk_iff.1 h).resolve_left hp]

theorem decodePass_of_encodePass {w : CmdWord} {pass : Option Int} (hf : fitsPass pass = true)
    (hpben : cwField w 118 1 = (encodePass pass).1) (hpass : cwField w 0 32 = (encodePass pass).2) :
    passOk w = true ∧ decodePass w = pass := by
  cases pass with
  | none => exact ⟨passOk_iff.2 (.inr hpass), if_neg (by rw [hpben]; decide)⟩
  | some p =>
    refine ⟨passOk_iff.2 (.inl hpben), ?_⟩
    rw [decodePass, if_pos (show cwField w 118 1 = 1#1 from hpben), hpass]
    exact congrArg some (toInt_ofInt_of_fitsSigned hf)

/-! ### The decoder, format by format -/

/-- The word `w` is one of the format whose instruction is `i`: its opcode, the fields that must be 0, and the operands read from the
others; or it names no command (R82, R85, R89). By `decodesAs_iff` this is what the decoder answers. -/
inductive DecodesAs (w : CmdWord) : Instr → Prop where
  | new (hop : cwField w 124 4 = 0#4) (hzero : cwField w 96 22 = 0#22) (hpass : passOk w = true) :
      DecodesAs w (.new (cwField w 122 2) (cwField w 119 3) (cwField w 64 32).toInt (cwField w 32 32).toInt (decodePass w))
  | setSampling (hop : cwField w 124 4 = 1#4) (hmodel : cwField w 122 2 = 0#2) (hzero : cwField w 96 22 = 0#22)
      (hpass : passOk w = true) :
      DecodesAs w (.setSampling (cwField w 119 3) (cwField w 64 32).toInt (cwField w 32 32).toInt (decodePass w))
  | reset (hop : cwField w 124 4 = 2#4) (hzero : cwField w 0 124 = 0#124) : DecodesAs w .reset
  | write (hop : cwField w 124 4 = 3#4) (hzero : cwField w 64 28 = 0#28) :
      DecodesAs w (writeRow (cwField w 116 8).toNat (cwField w 92 24).toNat (cwField w 0 64).toInt)
  | read (hop : cwField w 124 4 = 4#4) (hzero : cwField w 0 116 = 0#116) : DecodesAs w (readRow (cwField w 116 8).toNat)
  | clock (hop : cwField w 124 4 = 5#4) (hzero : cwField w 64 60 = 0#60) : DecodesAs w (.clock (cwField w 0 64).toInt)
  | reserved (h : isReservedWord w = true) : DecodesAs w (.reserved w)

section
variable {w : CmdWord} {i : Instr}

theorem decode_of_reserved (h : isReservedWord w = true) : decode w = .reserved w := if_pos h

theorem decode_of_decodesAs (h : DecodesAs w i) : decode w = i := by
  cases h with
  | reserved h => exact decode_of_reserved h
  | _ => simp [decode, decodeFields, isReservedWord, *]

/-- `isReservedWord` reads the opcode as a number. -/
theorem field_eq_of_toNat {lo n k : Nat} (h : (cwField w lo n).toNat = k) : cwField w lo n = BitVec.ofNat n k := by
  rw [← h, BitVec.ofNat_toNat, BitVec.setWidth_eq]

/-- Every word is of one of the formats, or names no command (R89). -/
theorem exists_decodesAs (w : CmdWord) : ∃ i, DecodesAs w i := by
  cases hr : isReservedWord w with
  | true => exact ⟨_, .reserved hr⟩
  | false =>
    unfold isReservedWord at hr
    split at hr <;> rename_i hop <;>
      simp only [Bool.or_eq_false_iff, Bool.not_eq_false', beq_iff_eq, Bool.true_eq_false] at hr
    · obtain ⟨hzero, hpass⟩ := hr
      exact ⟨_, .new (field_eq_of_toNat hop) hzero hpass⟩
    · obtain ⟨⟨hmodel, hzero⟩, hpass⟩ := hr
      exact ⟨_, .setSampling (field_eq_of_toNat hop) hmodel hzero hpass⟩
    · exact ⟨_, .reset (field_eq_of_toNat hop) hr⟩
    · exact ⟨_, .write (field_eq_of_toNat hop) hr⟩
    · exact ⟨_, .read (field_eq_of_toNat hop) hr⟩
    · exact ⟨_, .clock (field_eq_of_toNat hop) hr⟩

/-- The decoder is total: what it answers is of the word's format (R89). -/
theorem decodesAs_decode (w : CmdWord) : DecodesAs w (decode w) := by
  obtain ⟨i, h⟩ := exists_decodesAs w
  rwa [decode_of_decodesAs h]

theorem decodesAs_iff : DecodesAs w i ↔ decode w = i :=
  ⟨decode_of_decodesAs, fun h => h ▸ decodesAs_decode w⟩

/-! ### Encoding what was decoded -/

theorem wf_of_decodesAs (h : DecodesAs w i) : i.wf = true := by
  cases h with
  | new => simp [Instr.wf, fitsSigned_toInt, fitsPass_decodePass]
  | setSampling => simp [Instr.wf, fitsSigned_toInt, fitsPass_decodePass]
  | reset => rfl
  | write => exact wf_writeRow (Nat.le_of_lt_succ (cwField w 116 8).isLt) (fitsWrite_iff.2 ⟨fitsUnsigned_toNat _, fitsSigned_toInt _⟩)
  | read => exact wf_readRow (Nat.le_of_lt_succ (cwField w 116 8).isLt)
  | clock => exact fitsSigned_toInt _
  | reserved h => exact h

theorem encode_of_decodesAs (h : DecodesAs w i) : encode i = w := by
  cases h with
  | new hop hzero hpass =>
    rw [encode, encodePass_decodePass hpass, BitVec.ofInt_toInt, BitVec.ofInt_toInt, ← hop, ← hzero]
    exact word_format_n w
  | setSampling hop hmodel hzero hpass =>
    rw [encode, encodePass_decodePass hpass, BitVec.ofInt_toInt, BitVec.ofInt_toInt, ← hop, ← hmodel, ← hzero]
    exact word_format_n w
  | reset hop hzero => rw [encode, ← hop, ← hzero]; exact word_format_z w
  | write hop hzero =>
    rw [encode_writeRow, encodeWrite, ofInt_toNat, ofInt_toNat, BitVec.ofInt_toInt, ← hop, ← hzero]
    exact word_format_w w
  | read hop hzero => rw [encode_readRow, encodeRead, ofInt_toNat, ← hop, ← hzero]; exact word_format_r w
  | clock hop hzero => rw [encode, BitVec.ofInt_toInt, ← hop, ← hzero]; exact word_format_k w
  | reserved => rfl

/-! ### Decoding what was encoded -/

theorem fitsUnsigned_addr {n : Nat} (hn : n ≤ 255) : fitsUnsigned 8 n = true := fitsUnsigned_iff.2 (by omega)

theorem decodesAs_encodeWrite {n : Nat} (hn : n ≤ 255) {value stamp : Int} (h : fitsWrite value stamp = true) :
    DecodesAs (encodeWrite n value stamp) (writeRow n value stamp) := by
  obtain ⟨hvalue, hstamp⟩ := fitsWrite_iff.1 h
  obtain ⟨hop, ha, hd, hzero, ht⟩ := fields_format_w _ _ _ (encodeWrite n value stamp) rfl
  have hw := DecodesAs.write hop hzero
  have hn := Int.ofNat_inj.1 (toNat_ofInt_of_fitsUnsigned (fitsUnsigned_addr hn))
  rwa [ha, hd, ht, hn, toNat_ofInt_of_fitsUnsigned hvalue, toInt_ofInt_of_fitsSigned hstamp] at hw

theorem decodesAs_encodeRead {n : Nat} (hn : n ≤ 255) : DecodesAs (encodeRead n) (readRow n) := by
  obtain ⟨hop, ha, hzero⟩ := fields_format_r _ (encodeRead n) rfl
  have hr := DecodesAs.read hop hzero
  have hn := Int.ofNat_inj.1 (toNat_ofInt_of_fitsUnsigned (fitsUnsigned_addr hn))
  rwa [ha, hn] at hr

theorem decodesAs_encode_new {model : BitVec 2} {method : BitVec 3} {clk out : Int} {pass : Option Int}
    (hclk : fitsSigned 31 clk = true) (hout : fitsSigned 31 out = true) (hpass : fitsPass pass = true) :
    DecodesAs (encode (.new model method clk out pass)) (.new model method clk out pass) := by
  obtain ⟨hop, hmodel, hmethod, hpben, hzero, hc, ho, hp⟩ :=
    fields_format_n _ _ _ _ _ _ _ (encode (.new model method clk out pass)) rfl
  obtain ⟨hok, hdec⟩ := decodePass_of_encodePass hpass hpben hp
  have hn := DecodesAs.new hop hzero hok
  rwa [hmodel, hmethod, hc, ho, hdec, toInt_ofInt_of_fitsSigned hclk, toInt_ofInt_of_fitsSigned hout] at hn

theorem decodesAs_encode_setSampling {method : BitVec 3} {clk out : Int} {pass : Option Int}
    (hclk : fitsSigned 31 clk = true) (hout : fitsSigned 31 out = true) (hpass : fitsPass pass = true) :
    DecodesAs (encode (.setSampling method clk out pass)) (.setSampling method clk out pass) := by
  obtain ⟨hop, hmodel, hmethod, hpben, hzero, hc, ho, hp⟩ :=
    fields_format_n _ _ _ _ _ _ _ (encode (.setSampling method clk out pass)) rfl
  obtain ⟨hok, hdec⟩ := decodePass_of_encodePass hpass hpben hp
  have hn := DecodesAs.setSampling hop hmodel hzero hok
  rwa [hmethod, hc, ho, hdec, toInt_ofInt_of_fitsSigned hclk, toInt_ofInt_of_fitsSigned hout] at hn

theorem decodesAs_encode_clock {n : Int} (h : fitsSigned 63 n = true) : DecodesAs (encode (.clock n)) (.clock n) := by
  obtain ⟨hop, hzero, hn⟩ := fields_format_k _ (encode (.clock n)) rfl
  have hc := DecodesAs.clock hop hzero
  rwa [hn, toInt_ofInt_of_fitsSigned h] at hc

theorem decodesAs_encode_registerWrite {a : RegAddr} {value stamp : Int} (hi : i.registerWrite = some (a, value, stamp))
    (h : i.wf = true) : DecodesAs (encode i) i := by
  rw [wf_of_registerWrite hi] at h
  obtain rfl := eq_writeRow_of_registerWrite hi
  rw [encode_writeRow]
  exact decodesAs_encodeWrite (by omega) h

/-- The word of a well-formed instruction is of the instruction's format (R82, R85). -/
theorem decodesAs_encode (h : i.wf = true) : DecodesAs (encode i) i := by
  cases i with
  | new =>
    simp only [Instr.wf, Bool.and_eq_true] at h
    obtain ⟨⟨hclk, hout⟩, hpass⟩ := h
    exact decodesAs_encode_new hclk hout hpass
  | setSampling =>
    simp only [Instr.wf, Bool.and_eq_true] at h
    obtain ⟨⟨hclk, hout⟩, hpass⟩ := h
    exact decodesAs_encode_setSampling hclk hout hpass
  | reset =>
    obtain ⟨hop, hzero⟩ := fields_format_z 2#4 0#124
    exact .reset hop hzero
  | writeOutOfRange addr value stamp =>
    simp only [Instr.wf, Bool.and_eq_true, decide_eq_true_eq] at h
    obtain ⟨⟨hlo, hhi⟩, hw⟩ := h
    obtain ⟨n, rfl⟩ := Int.eq_ofNat_of_zero_le (by omega : 0 ≤ addr)
    rw [← writeRow_of_le (by omega) value stamp, encode_writeRow]
    exact decodesAs_encodeWrite (by omega) hw
  | read addr =>
    simp only [Instr.wf, Bool.and_eq_true, decide_eq_true_eq] at h
    obtain ⟨n, rfl⟩ := Int.eq_ofNat_of_zero_le h.1
    have hr : readRow n = .read n := if_pos (by omega)
    rw [← hr, encode_readRow]
    exact decodesAs_encodeRead (by omega)
  | readOutOfRange addr =>
    simp only [Instr.wf, Bool.and_eq_true, decide_eq_true_eq] at h
    obtain ⟨n, rfl⟩ := Int.eq_ofNat_of_zero_le (by omega : 0 ≤ addr)
    have hr : readRow n = .readOutOfRange n := if_neg (by omega)
    rw [← hr, encode_readRow]
    exact decodesAs_encodeRead (by omega)
  | clock n => exact decodesAs_encode_clock h
  | reserved w => exact .reserved h
  | _ => exact decodesAs_encode_registerWrite rfl h

end

/-- Settles O1: the word of `i` is of the format of `i` (`decodesAs_encode`), and the decoder answers by the format. -/
theorem decodeInvertsEncode : Obligations.DecodeInvertsEncode :=
  fun _ h => decodesAs_iff.1 (decodesAs_encode h)

/-- Settles O2: every word is of a format (`decodesAs_decode`), and each format is put together again from its fields. -/
theorem encodeInvertsDecode : Obligations.EncodeInvertsDecode :=
  fun w => ⟨wf_of_decodesAs (decodesAs_decode w), encode_of_decodesAs (decodesAs_decode w)⟩

/-! ### The reserved words as numbers -/

/-- A word decodes to itself as reserved exactly when it names no command (R89). -/
theorem decode_eq_reserved_iff {w : CmdWord} : decode w = .reserved w ↔ isReservedWord w = true := by
  refine ⟨fun h => ?_, decode_of_reserved⟩
  have hwf := wf_of_decodesAs (decodesAs_decode w)
  rwa [h] at hwf

/-- A field of a word as a number (R8). -/
theorem cwField_toNat (w : CmdWord) (lo n : Nat) : (cwField w lo n).toNat = w.toNat / 2 ^ lo % 2 ^ n := by
  rw [cwField, BitVec.extractLsb'_toNat, Nat.shiftRight_eq_div_pow]

theorem cwField_eq_ofNat_iff {w : CmdWord} {lo n k : Nat} (hk : k < 2 ^ n) :
    cwField w lo n = BitVec.ofNat n k ↔ w.toNat / 2 ^ lo % 2 ^ n = k := by
  rw [← BitVec.toNat_inj, cwField_toNat, BitVec.toNat_ofNat, Nat.mod_eq_of_lt hk]

/-- The opcode needs no upper bound: it is the top of the word (R81). -/
theorem opcode_toNat (w : CmdWord) : (cwField w 124 4).toNat = w.toNat / 2 ^ 124 := by
  have hw := w.isLt
  rw [cwField_toNat, Nat.mod_eq_of_lt (by omega)]

/-- `PASS` is set though `PBEN` is 0 (R82). -/
theorem passOk_eq_false_iff {w : CmdWord} : passOk w = false ↔ w.toNat / 2 ^ 118 % 2 = 0 ∧ w.toNat % 2 ^ 32 ≠ 0 := by
  rw [← Bool.not_eq_true, passOk_iff, cwField_eq_ofNat_iff (by decide), cwField_eq_ofNat_iff (by decide)]
  omega

/-- Settles O4: the opcodes of `isReservedWord` one by one, each field read as a number. -/
theorem reservedWordsAreTheThreeKinds : Obligations.ReservedWordsAreTheThreeKinds := by
  intro w
  have hfield (lo n : Nat) : cwField w lo n = 0#n ↔ w.toNat / 2 ^ lo % 2 ^ n = 0 := cwField_eq_ofNat_iff (Nat.two_pow_pos n)
  rw [decode_eq_reserved_iff, ← opcode_toNat]
  unfold isReservedWord
  split
  case h_7 =>
    refine iff_of_true rfl (.inl ?_)
    simp only [imp_false] at *
    omega
  all_goals simp [*, passOk_eq_false_iff]

/-! ### What a mask and a pattern say of the fields -/

/-- Bit `i` lies in one of the fields, each given by its first bit and its width. -/
def inFields (fields : List (Nat × Nat)) (i : Nat) : Bool := fields.any fun f => decide (f.1 ≤ i ∧ i < f.1 + f.2)

/-- Two words have the same field exactly when they agree on its bits (R8). -/
theorem cwField_eq_iff {w p : CmdWord} {lo n : Nat} :
    cwField w lo n = cwField p lo n ↔ ∀ i, lo ≤ i → i < lo + n → w.getLsbD i = p.getLsbD i := by
  unfold cwField
  refine ⟨fun h i hlo hhi => ?_, fun h => BitVec.eq_of_getLsbD_eq fun j hj => ?_⟩
  · have hbit := congrArg (·.getLsbD (i - lo)) h
    simpa [show i - lo < n by omega, show lo + (i - lo) = i by omega] using hbit
  · simpa [hj] using h (lo + j) (by omega) (by omega)

/-- A mask that covers certain fields, with a pattern inside them, compares those fields (R87). -/
theorem masked_eq_iff {w m p : CmdWord} (fields : List (Nat × Nat)) (hm : ∀ i : Fin 128, m.getLsbD i = inFields fields i)
    (hp : p &&& m = p) : w &&& m = p ↔ ∀ f ∈ fields, cwField w f.1 f.2 = cwField p f.1 f.2 := by
  simp only [cwField_eq_iff]
  constructor
  · intro h f hf i hlo hhi
    rcases Nat.lt_or_ge i 128 with hi | hi
    · have hmi : m.getLsbD i = true := by
        rw [hm ⟨i, hi⟩, inFields, List.any_eq_true]
        exact ⟨f, hf, decide_eq_true ⟨hlo, hhi⟩⟩
      rw [← h, BitVec.getLsbD_and, hmi, Bool.and_true]
    · rw [BitVec.getLsbD_of_ge _ _ hi, BitVec.getLsbD_of_ge _ _ hi]
  · intro h
    rw [← hp]
    refine BitVec.eq_of_getLsbD_eq fun i hi => ?_
    rw [BitVec.getLsbD_and, BitVec.getLsbD_and]
    cases hmi : m.getLsbD i with
    | false => rw [Bool.and_false, Bool.and_false]
    | true =>
      rw [hm ⟨i, hi⟩, inFields, List.any_eq_true] at hmi
      obtain ⟨f, hf, hfi⟩ := hmi
      obtain ⟨hlo, hhi⟩ := of_decide_eq_true hfi
      rw [h f hf i hlo hhi]

/-! ### The rows of the opcode table -/

/-- The condition under which `firstRow` takes a row (R87). -/
def OpcodeRow.matches (r : OpcodeRow) (w : CmdWord) : Bool := decide (w &&& r.mask = r.pattern) && r.constraint w

theorem OpcodeRow.matches_iff {r : OpcodeRow} {w : CmdWord} :
    r.matches w = true ↔ w &&& r.mask = r.pattern ∧ r.constraint w = true := by
  simp [OpcodeRow.matches]

def newRow : OpcodeRow :=
  ⟨"NEW", 0x00000000000000000000000000000000#128, 0xF03FFFFF000000000000000000000000#128, pbenOrNoPass⟩

def setSamplingRow : OpcodeRow :=
  ⟨"SETSAMPLING", 0x10000000000000000000000000000000#128, 0xFC3FFFFF000000000000000000000000#128, pbenOrNoPass⟩

def resetRow : OpcodeRow :=
  ⟨"RESET", 0x20000000000000000000000000000000#128, 0xFFFFFFFFFFFFFFFFFFFFFFFFFFFFFFFF#128, anyWord⟩

/-- The row of the register form of WRITE at `a`. -/
def registerRow (a : RegAddr) : OpcodeRow :=
  ⟨(writeRow a.val 0 0).mnemonic, encodeWrite a.val 0 0, 0xFFF000000FFFFFFF0000000000000000#128, anyWord⟩

def writeOutOfRangeRow : OpcodeRow :=
  ⟨"WRITE.OUT_OF_RANGE", 0x30000000000000000000000000000000#128, 0xF00000000FFFFFFF0000000000000000#128,
    fun w => decide (25 ≤ addrBits w)⟩

def readInRangeRow : OpcodeRow :=
  ⟨"READ", 0x40000000000000000000000000000000#128, 0xF00FFFFFFFFFFFFFFFFFFFFFFFFFFFFF#128, fun w => decide (addrBits w ≤ 24)⟩

def readOutOfRangeRow : OpcodeRow :=
  ⟨"READ.OUT_OF_RANGE", 0x40000000000000000000000000000000#128, 0xF00FFFFFFFFFFFFFFFFFFFFFFFFFFFFF#128,
    fun w => decide (25 ≤ addrBits w)⟩

def clockRow : OpcodeRow :=
  ⟨"CLOCK", 0x50000000000000000000000000000000#128, 0xFFFFFFFFFFFFFFFF0000000000000000#128, anyWord⟩

def reservedRow : OpcodeRow := ⟨"RESERVED", 0#128, 0#128, anyWord⟩

/-- The rows that name a command: all but RESERVED. -/
def namedRows : List OpcodeRow :=
  [newRow, setSamplingRow, resetRow] ++ (List.finRange 25).map registerRow ++
    [writeOutOfRangeRow, readInRangeRow, readOutOfRangeRow, clockRow]

theorem opcodeTable_eq : opcodeTable = namedRows ++ [reservedRow] := rfl

theorem mem_namedRows {r : OpcodeRow} :
    r ∈ namedRows ↔ r = newRow ∨ r = setSamplingRow ∨ r = resetRow ∨ (∃ a, r = registerRow a) ∨ r = writeOutOfRangeRow ∨
      r = readInRangeRow ∨ r = readOutOfRangeRow ∨ r = clockRow := by
  simp [namedRows, eq_comm]

/-- RESERVED comes last and matches every word (R87). -/
theorem firstRow_eq (w : CmdWord) : firstRow w = (namedRows.find? (·.matches w)).or (some reservedRow) := by
  have hlast : [reservedRow].find? (·.matches w) = some reservedRow := by simp [OpcodeRow.matches, reservedRow, anyWord]
  rw [← hlast, ← List.find?_append, ← opcodeTable_eq]
  rfl

/-! ### Which words a row matches -/

theorem pbenOrNoPass_eq_passOk (w : CmdWord) : pbenOrNoPass w = passOk w := by
  rw [Bool.eq_iff_iff, passOk_iff, pbenOrNoPass, decide_eq_true_iff, Machine.getLsbD_iff_div_mod,
    cwField_eq_ofNat_iff (by decide), cwField_eq_ofNat_iff (by decide)]
  simp

theorem addrBits_eq_field (w : CmdWord) : addrBits w = (cwField w 116 8).toNat := (cwField_toNat w 116 8).symm

/-- A row whose mask covers certain fields compares those fields and checks its constraint (R87). -/
theorem matches_iff_fields {r : OpcodeRow} {w : CmdWord} (fields : List (Nat × Nat))
    (hm : ∀ i : Fin 128, r.mask.getLsbD i = inFields fields i) (hp : r.pattern &&& r.mask = r.pattern) :
    r.matches w = true ↔ (fields.Forall fun f => cwField w f.1 f.2 = cwField r.pattern f.1 f.2) ∧ r.constraint w = true := by
  rw [OpcodeRow.matches_iff, masked_eq_iff fields hm hp, List.forall_iff_forall_mem]

section
variable (w : CmdWord)

theorem newRow_matches_iff :
    newRow.matches w = true ↔ (cwField w 124 4 = 0#4 ∧ cwField w 96 22 = 0#22) ∧ passOk w = true := by
  rw [← pbenOrNoPass_eq_passOk]
  exact matches_iff_fields [(124, 4), (96, 22)] (by decide) (by decide)

theorem setSamplingRow_matches_iff :
    setSamplingRow.matches w = true ↔
      (cwField w 124 4 = 1#4 ∧ cwField w 122 2 = 0#2 ∧ cwField w 96 22 = 0#22) ∧ passOk w = true := by
  rw [← pbenOrNoPass_eq_passOk]
  exact matches_iff_fields [(124, 4), (122, 2), (96, 22)] (by decide) (by decide)

theorem resetRow_matches_iff : resetRow.matches w = true ↔ cwField w 124 4 = 2#4 ∧ cwField w 0 124 = 0#124 :=
  (matches_iff_fields [(124, 4), (0, 124)] (by decide) (by decide)).trans (and_iff_left rfl)

theorem registerRow_matches_iff (a : RegAddr) :
    (registerRow a).matches w = true ↔ cwField w 124 4 = 3#4 ∧ (cwField w 116 8).toNat = a.val ∧ cwField w 64 28 = 0#28 := by
  have hmask : ∀ i : Fin 128, (0xFFF000000FFFFFFF0000000000000000#128 : CmdWord).getLsbD i =
    inFields [(124, 4), (116, 8), (64, 28)] i := by decide
  have hpattern : ∀ a, (registerRow a).pattern &&& (registerRow a).mask = (registerRow a).pattern ∧
    cwField (registerRow a).pattern 124 4 = 3#4 ∧ (cwField (registerRow a).pattern 116 8).toNat = a.val ∧
      cwField (registerRow a).pattern 64 28 = 0#28 := by decide
  obtain ⟨hp, hop, haddr, hzero⟩ := hpattern a
  rw [← hop, ← haddr, ← hzero, BitVec.toNat_inj]
  exact (matches_iff_fields [(124, 4), (116, 8), (64, 28)] hmask hp).trans (and_iff_left rfl)

theorem writeOutOfRangeRow_matches_iff :
    writeOutOfRangeRow.matches w = true ↔ (cwField w 124 4 = 3#4 ∧ cwField w 64 28 = 0#28) ∧ 25 ≤ (cwField w 116 8).toNat := by
  rw [← addrBits_eq_field, ← decide_eq_true_iff (p := 25 ≤ addrBits w)]
  exact matches_iff_fields [(124, 4), (64, 28)] (by decide) (by decide)

theorem readInRangeRow_matches_iff :
    readInRangeRow.matches w = true ↔ (cwField w 124 4 = 4#4 ∧ cwField w 0 116 = 0#116) ∧ (cwField w 116 8).toNat ≤ 24 := by
  rw [← addrBits_eq_field, ← decide_eq_true_iff (p := addrBits w ≤ 24)]
  exact matches_iff_fields [(124, 4), (0, 116)] (by decide) (by decide)

theorem readOutOfRangeRow_matches_iff :
    readOutOfRangeRow.matches w = true ↔ (cwField w 124 4 = 4#4 ∧ cwField w 0 116 = 0#116) ∧ 25 ≤ (cwField w 116 8).toNat := by
  rw [← addrBits_eq_field, ← decide_eq_true_iff (p := 25 ≤ addrBits w)]
  exact matches_iff_fields [(124, 4), (0, 116)] (by decide) (by decide)

theorem clockRow_matches_iff : clockRow.matches w = true ↔ cwField w 124 4 = 5#4 ∧ cwField w 64 60 = 0#60 :=
  (matches_iff_fields [(124, 4), (64, 60)] (by decide) (by decide)).trans (and_iff_left rfl)

end

/-! ### The first matching row -/

/-- A row that names a command and matches a word is the row of what the word decodes to. -/
theorem mnemonic_of_matches {r : OpcodeRow} {w : CmdWord} (hr : r ∈ namedRows) (h : r.matches w = true) :
    (decode w).mnemonic = r.mnemonic := by
  obtain rfl | rfl | rfl | ⟨a, rfl⟩ | rfl | rfl | rfl | rfl := mem_namedRows.1 hr
  · obtain ⟨⟨hop, hzero⟩, hpass⟩ := (newRow_matches_iff w).1 h
    rw [decode_of_decodesAs (.new hop hzero hpass)]
    rfl
  · obtain ⟨⟨hop, hmodel, hzero⟩, hpass⟩ := (setSamplingRow_matches_iff w).1 h
    rw [decode_of_decodesAs (.setSampling hop hmodel hzero hpass)]
    rfl
  · obtain ⟨hop, hzero⟩ := (resetRow_matches_iff w).1 h
    rw [decode_of_decodesAs (.reset hop hzero)]
    rfl
  · obtain ⟨hop, haddr, hzero⟩ := (registerRow_matches_iff w a).1 h
    rw [decode_of_decodesAs (.write hop hzero), haddr, mnemonic_writeRow]
    rfl
  · obtain ⟨⟨hop, hzero⟩, haddr⟩ := (writeOutOfRangeRow_matches_iff w).1 h
    rw [decode_of_decodesAs (.write hop hzero), writeRow_of_le haddr]
    rfl
  · obtain ⟨⟨hop, hzero⟩, haddr⟩ := (readInRangeRow_matches_iff w).1 h
    rw [decode_of_decodesAs (.read hop hzero), readRow, if_pos haddr]
    rfl
  · obtain ⟨⟨hop, hzero⟩, haddr⟩ := (readOutOfRangeRow_matches_iff w).1 h
    rw [decode_of_decodesAs (.read hop hzero), readRow, if_neg (by omega)]
    rfl
  · obtain ⟨hop, hzero⟩ := (clockRow_matches_iff w).1 h
    rw [decode_of_decodesAs (.clock hop hzero)]
    rfl

/-- A word of one of the formats matches a row that names a command (R87). -/
theorem exists_row_of_decodesAs {w : CmdWord} {i : Instr} (h : DecodesAs w i) :
    isReservedWord w = true ∨ ∃ r ∈ namedRows, r.matches w = true := by
  simp only [mem_namedRows]
  cases h with
  | new hop hzero hpass => exact .inr ⟨newRow, by simp, (newRow_matches_iff w).2 ⟨⟨hop, hzero⟩, hpass⟩⟩
  | setSampling hop hmodel hzero hpass =>
    exact .inr ⟨setSamplingRow, by simp, (setSamplingRow_matches_iff w).2 ⟨⟨hop, hmodel, hzero⟩, hpass⟩⟩
  | reset hop hzero => exact .inr ⟨resetRow, by simp, (resetRow_matches_iff w).2 ⟨hop, hzero⟩⟩
  | write hop hzero =>
    obtain ⟨a, ha⟩ | h25 := writeRow_cases (cwField w 116 8).toNat
    · exact .inr ⟨registerRow a, by simp, (registerRow_matches_iff w a).2 ⟨hop, ha, hzero⟩⟩
    · exact .inr ⟨writeOutOfRangeRow, by simp, (writeOutOfRangeRow_matches_iff w).2 ⟨⟨hop, hzero⟩, h25⟩⟩
  | read hop hzero =>
    rcases Nat.lt_or_ge (cwField w 116 8).toNat 25 with hlt | h25
    · exact .inr ⟨readInRangeRow, by simp, (readInRangeRow_matches_iff w).2 ⟨⟨hop, hzero⟩, Nat.le_of_lt_succ hlt⟩⟩
    · exact .inr ⟨readOutOfRangeRow, by simp, (readOutOfRangeRow_matches_iff w).2 ⟨⟨hop, hzero⟩, h25⟩⟩
  | clock hop hzero => exact .inr ⟨clockRow, by simp, (clockRow_matches_iff w).2 ⟨hop, hzero⟩⟩
  | reserved hr => exact .inl hr

/-- Settles O3: a named row that matches is the row of the decoded instruction, and a word that matches none is reserved. -/
theorem firstMatchingRowIsTheInstruction : Obligations.FirstMatchingRowIsTheInstruction := by
  intro w
  rw [firstRow_eq]
  cases hfind : namedRows.find? (·.matches w) with
  | some r =>
    have hmatch : r.matches w = true := by simpa using List.find?_some hfind
    exact congrArg some (mnemonic_of_matches (List.mem_of_find?_eq_some hfind) hmatch).symm
  | none =>
    have hnone : ¬ ∃ r ∈ namedRows, r.matches w = true := by simpa using hfind
    rw [decode_of_reserved ((exists_row_of_decodesAs (decodesAs_decode w)).resolve_right hnone)]
    rfl

end Sys2Proof


/-! SUPPORT. The pseudo-commands as pairs of due writes, and the shape of every command's response. -/

namespace Sys2Proof.Machine

/-! ### A due write to a data register -/

/-- APPLY to a register that controls no voice only stores the byte (R120). -/
theorem applyWrite_of_data {a : RegAddr} (ha : controlVoice a = none) (value : Int) (e : Engine) :
    applyWrite a value e = writeReg e a (maskedValue a value) := by
  simp only [applyWrite, ha]

/-- A WRITE stamped with the current cycle is APPLY (R105). -/
theorem scheduleWrite_now (a : RegAddr) (value : Int) (e : Engine) : scheduleWrite a value e.cyc e = applyWrite a value e := by
  simp [scheduleWrite]

/-- A WRITE to a data register, stamped with the current cycle, on a running engine (R105, R120). -/
theorem exec_writeRow_now {s : State} {e : Engine} (hs : s.inst = .running e) (hcyc : e.cyc ≤ 9223372036854775807) {a : RegAddr}
    (ha : controlVoice a = none) (value : Int) :
    exec (writeRow a.val value e.cyc) s = .next (finish s (writeReg e a (maskedValue a value)) okResponse) := by
  rw [exec_registerWrite (registerWrite_writeRow a value e.cyc), writeCommand_register hs a value e.cyc hcyc, scheduleWrite_now,
    applyWrite_of_data ha]

/-- A value no larger than the register's mask is stored whole (R23): the masks are `2 ^ k - 1`. -/
theorem maskedValue_toNat {a : RegAddr} {n : Nat} (h : n ≤ (mask a).toNat) : (maskedValue a n).toNat = n := by
  have hmask : (mask a).toNat = 2 ^ 4 - 1 ∨ (mask a).toNat = 2 ^ 3 - 1 ∨ (mask a).toNat = 2 ^ 8 - 1 := by
    clear h; revert a; decide
  rw [maskedValue, BitVec.toNat_and, BitVec.ofInt_natCast, BitVec.toNat_ofNat]
  obtain hk | hk | hk := hmask <;> rw [hk, Nat.and_two_pow_sub_one_eq_mod] <;> omega

/-! ### The pseudo-commands (R93) -/

/-- What a pseudo-command does to the engine: the two bytes of its field, the low part first. -/
def writePair (e : Engine) (a b : RegAddr) (x y : Nat) : Engine :=
  writeReg (writeReg e a (maskedValue a x)) b (maskedValue b y)

/-- The two WRITEs of a pseudo-command, stamped with the current cycle, complete (R93, R105). -/
theorem exec_writeRow_pair {s : State} {e : Engine} (hs : s.inst = .running e) (hcyc : e.cyc ≤ 9223372036854775807) {a b : RegAddr}
    (ha : controlVoice a = none) (hb : controlVoice b = none) (x y : Nat) :
    ∃ t, exec (writeRow a.val x e.cyc) s = .next t ∧
      exec (writeRow b.val y e.cyc) t = .next { s with
        inst := .running (writePair e a b x y), response := some { status := 0, data := 0, samples := [] } } :=
  ⟨_, exec_writeRow_now hs hcyc ha x, exec_writeRow_now (e := writeReg e a (maskedValue a x)) (finish_inst ..) hcyc hb y⟩

section
variable (e : Engine) {a b : RegAddr} {x y : Nat}

theorem writePair_frame (a b : RegAddr) (x y : Nat) : writePair e a b x y = { e with reg := (writePair e a b x y).reg } := rfl

theorem writePair_other {c : RegAddr} (ha : c.val ≠ a.val) (hb : c.val ≠ b.val) : (writePair e a b x y).reg[c] = e.reg[c] := by
  simp [writePair, ha.symm, hb.symm]

theorem writePair_low (hab : a.val ≠ b.val) (hx : x ≤ (mask a).toNat) : (writePair e a b x y).reg[a].toNat = x := by
  simp [writePair, hab.symm, maskedValue_toNat hx]

theorem writePair_high (hy : y ≤ (mask b).toNat) : (writePair e a b x y).reg[b].toNat = y := by
  simp [writePair, maskedValue_toNat hy]

end

/-- The registers that control no voice (R26). -/
theorem controlVoice_none {a : RegAddr} : controlVoice a = none ↔ a.val ≠ 4 ∧ a.val ≠ 11 ∧ a.val ≠ 18 := by
  revert a; decide

/-- A pair of adjacent data registers, written by a pseudo-command: what O17 says of one, for any field. -/
theorem pseudoCommand_completes {s : State} {e : Engine} (hs : s.inst = .running e) (hcyc : e.cyc ≤ 9223372036854775807)
    {low high : RegAddr} (hhigh : high.val = low.val + 1) (hl : controlVoice low = none) (hh : controlVoice high = none)
    {is : List Instr} {x y n : Nat} (his : is = [writeRow low.val x e.cyc, writeRow (low.val + 1) y e.cyc]) (field : RegFile → Nat)
    (hfield : field (writePair e low high x y).reg = n) :
    ∃ (i j : Instr) (t : State) (e1 : Engine),
      is = [i, j] ∧ exec i s = .next t ∧
        exec j t = .next { s with inst := .running e1, response := some { status := 0, data := 0, samples := [] } } ∧
        field e1.reg = n ∧ (∀ a : RegAddr, a.val ≠ low.val → a.val ≠ low.val + 1 → e1.reg[a] = e.reg[a]) ∧
        e1 = { e with reg := e1.reg } := by
  obtain ⟨t, hi, hj⟩ := exec_writeRow_pair hs hcyc hl hh x y
  rw [hhigh] at hj
  exact ⟨_, _, t, writePair e low high x y, his, hi, hj, hfield,
    fun a ha hb => writePair_other e ha (hhigh ▸ hb), writePair_frame e low high x y⟩

/-! ### The two parts of a value -/

/-- The part of a value that goes to the low register. -/
theorem toNat_and_low {n : Nat} (z : BitVec n) (k : Nat) (hk : 2 ^ k - 1 < 2 ^ n) :
    (z &&& BitVec.ofNat n (2 ^ k - 1)).toNat = z.toNat % 2 ^ k := by
  rw [BitVec.toNat_and, BitVec.toNat_ofNat, Nat.mod_eq_of_lt hk, Nat.and_two_pow_sub_one_eq_mod]

/-- The part of a value that goes to the high register. -/
theorem toNat_shiftRight {n : Nat} (z : BitVec n) (k : Nat) : (z >>> k).toNat = z.toNat / 2 ^ k := by
  rw [BitVec.toNat_ushiftRight, Nat.shiftRight_eq_div_pow]

theorem voiceReg_eq_at {v : VoiceId} {k : Fin 7} {a : RegAddr} (h : a.val = 7 * v.val + k.val) (r : RegFile) :
    voiceReg r v k = r[a] := by
  simp [voiceReg, h]

theorem mask_of_full {a : RegAddr} (h : a.val ≠ 3 ∧ a.val ≠ 10 ∧ a.val ≠ 17 ∧ a.val ≠ 21) : (mask a).toNat = 255 := by
  revert a; decide

theorem mask_of_pwHi {a : RegAddr} {v : VoiceId} (h : a.val = 7 * v.val + 3) : (mask a).toNat = 15 := by
  revert a v; decide

section
variable (e : Engine) {low high : RegAddr} (hhigh : high.val = low.val + 1)
include hhigh

/-- WRFREQ leaves `freq(v)` at the value (R24, R93). -/
theorem freq_writePair {v : VoiceId} (hlow : low.val = 7 * v.val) (z : BitVec 16) :
    (freq (writePair e low high (z &&& 0xFF#16).toNat (z >>> 8).toNat).reg v).toNat = z.toNat := by
  have hz := z.isLt
  have hx : (z &&& 0xFF#16).toNat = z.toNat % 256 := toNat_and_low z 8 (by decide)
  have hy : (z >>> 8).toNat = z.toNat / 256 := toNat_shiftRight z 8
  have hml : (mask low).toNat = 255 := mask_of_full (by omega)
  have hmh : (mask high).toNat = 255 := mask_of_full (by omega)
  rw [freq_toNat, voiceReg_eq_at (a := high) (by rw [hhigh, hlow]; rfl), voiceReg_eq_at (a := low) (by rw [hlow]; rfl),
    writePair_high e (by omega), writePair_low e (by omega) (by omega)]
  omega

/-- WRPW leaves `pw(v)` at the value (R25, R93). -/
theorem pulseWidth_writePair {v : VoiceId} (hlow : low.val = 7 * v.val + 2) (z : BitVec 12) :
    (pulseWidth (writePair e low high (z &&& 0xFF#12).toNat (z >>> 8).toNat).reg v).toNat = z.toNat := by
  have hz := z.isLt
  have hx : (z &&& 0xFF#12).toNat = z.toNat % 256 := toNat_and_low z 8 (by decide)
  have hy : (z >>> 8).toNat = z.toNat / 256 := toNat_shiftRight z 8
  have hml : (mask low).toNat = 255 := mask_of_full (by omega)
  have hmh : (mask high).toNat = 15 := mask_of_pwHi (v := v) (by omega)
  rw [pulseWidth_toNat, voiceReg_eq_at (a := high) (by rw [hhigh, hlow]; rfl), voiceReg_eq_at (a := low) (by rw [hlow]; rfl),
    writePair_high e (by omega), writePair_low e (by omega) (by omega)]
  omega

end

/-- WRFC leaves `fc` at the value (R29, R93). -/
theorem cutoff_writePair (e : Engine) (z : BitVec 11) :
    (cutoff (writePair e 21 22 (z &&& 7#11).toNat (z >>> 3).toNat).reg).toNat = z.toNat := by
  have hz := z.isLt
  have hx : (z &&& 7#11).toNat = z.toNat % 8 := toNat_and_low z 3 (by decide)
  have hy : (z >>> 3).toNat = z.toNat / 8 := toNat_shiftRight z 3
  have hml : (mask 21).toNat = 7 := rfl
  have hmh : (mask 22).toNat = 255 := rfl
  rw [cutoff_toNat]
  change 8 * ((writePair e 21 22 _ _).reg[(22 : RegAddr)]).toNat + ((writePair e 21 22 _ _).reg[(21 : RegAddr)]).toNat % 8 = _
  rw [writePair_high e (by omega), writePair_low e (by decide) (by omega)]
  omega

/-- Settles O17: each pseudo-command is a pair of due WRITEs to adjacent data registers, whose two parts make the value again. -/
theorem pseudoCommandsSetTheirField : Obligations.PseudoCommandsSetTheirField := by
  rintro is low s e field x hs hcyc (⟨v, z, rfl, hlow, rfl, rfl⟩ | ⟨v, z, rfl, hlow, rfl, rfl⟩ | ⟨z, rfl, hlow, rfl, rfl⟩)
  · exact pseudoCommand_completes hs hcyc (high := ⟨low.val + 1, by omega⟩) rfl (controlVoice_none.2 (by omega))
      (controlVoice_none.2 (by simp only; omega)) (by rw [wrFreq, hlow]) (fun r => (freq r v).toNat) (freq_writePair e rfl hlow z)
  · exact pseudoCommand_completes hs hcyc (high := ⟨low.val + 1, by omega⟩) rfl (controlVoice_none.2 (by omega))
      (controlVoice_none.2 (by simp only; omega)) (by rw [wrPw, hlow]) (fun r => (pulseWidth r v).toNat)
      (pulseWidth_writePair e rfl hlow z)
  · obtain rfl : low = 21 := Fin.ext hlow
    exact pseudoCommand_completes hs hcyc (high := 22) rfl rfl rfl rfl (fun r => (cutoff r).toNat) (cutoff_writePair e z)

/-! ### The shape of a response -/

/-- What O26 says of the response `r` of the instruction `i` (R86). -/
def Response.Shaped (i : Instr) (r : Response) : Prop :=
  (r.status = 0 ∨ r.status = 3 ∨ r.status = 5) ∧
    (r.status = 3 → i.mnemonic = "NEW" ∨ i.mnemonic = "SETSAMPLING") ∧
    (r.status = 5 ↔ i.mnemonic = "RESERVED") ∧
    (r.data ≠ 0 → i.mnemonic = "READ" ∨ i.mnemonic = "READ.OUT_OF_RANGE") ∧
    (r.samples ≠ [] → i.mnemonic = "CLOCK")

section
variable {i : Instr}

theorem shaped_of_status_zero (hi : i.mnemonic ≠ "RESERVED") {data : Byte} {samples : List Sample}
    (hdata : data ≠ 0 → i.mnemonic = "READ" ∨ i.mnemonic = "READ.OUT_OF_RANGE") (hsamples : samples ≠ [] → i.mnemonic = "CLOCK") :
    Response.Shaped i { status := 0, data := data, samples := samples } :=
  ⟨.inl rfl, fun h => absurd h (show (0 : BitVec 4) ≠ 3 by decide), iff_of_false (by simp) hi, hdata, hsamples⟩

theorem shaped_okResponse (hi : i.mnemonic ≠ "RESERVED") : okResponse.Shaped i :=
  shaped_of_status_zero hi (absurd rfl) (absurd rfl)

/-- The response of InvalidSamplingConfig, status 3 (R290, R293). -/
theorem shaped_invalidSamplingConfig (hi : i.mnemonic = "NEW" ∨ i.mnemonic = "SETSAMPLING") :
    Response.Shaped i { status := errorStatus .invalidSamplingConfig, data := 0, samples := [] } := by
  have hne : i.mnemonic ≠ "RESERVED" := by rcases hi with h | h <;> simp [h]
  exact ⟨.inr (.inl rfl), fun _ => hi, iff_of_false (by decide) hne, absurd rfl, absurd rfl⟩

/-- The response of a reserved word, status 5 (R108, R290). -/
theorem shaped_reservedEncoding (hi : i.mnemonic = "RESERVED") :
    Response.Shaped i { status := errorStatus .reservedEncoding, data := 0, samples := [] } :=
  ⟨.inr (.inr rfl), fun h => absurd h (by decide), iff_of_true rfl hi, absurd rfl, absurd rfl⟩

theorem mnemonic_ne_reserved_of_registerWrite {a : RegAddr} {value stamp : Int} (h : i.registerWrite = some (a, value, stamp)) :
    i.mnemonic ≠ "RESERVED" := by
  cases i with
  | reserved w => cases h
  | _ => simp [Instr.mnemonic]

variable {s t : State}

/-- WRITE answers `(0, 0, empty)`, in range or not (R105, R291). -/
theorem writeCommand_response {c : Config.Tables} {addr value stamp : Int} (h : writeCommand c addr value stamp s = .next t) :
    t.response = some okResponse := by
  obtain ⟨e, -, ⟨-, rfl⟩ | ⟨a, -, -, -, rfl⟩⟩ := writeCommand_next h
  · rfl
  · rfl

/-- READ answers status 0 and a byte (R106). -/
theorem readCommand_response {addr : Int} (h : readCommand addr s = .next t) :
    ∃ data, t.response = some { status := 0, data := data, samples := [] } := by
  obtain ⟨e, -, ⟨-, rfl⟩ | ⟨a, -, rfl⟩⟩ := readCommand_next h
  · exact ⟨0, rfl⟩
  · exact ⟨readReg e a, rfl⟩

/-- Every instruction answers a response of its shape. -/
theorem exec_response_shaped (h : exec i s = .next t) : ∃ r, t.response = some r ∧ r.Shaped i := by
  cases i with
  | new model method clk out pass =>
    obtain ⟨-, ⟨m, c, -, -, rfl⟩ | ⟨-, rfl⟩⟩ := execNew_next h
    · exact ⟨_, rfl, shaped_okResponse (by simp [Instr.mnemonic])⟩
    · exact ⟨_, rfl, shaped_invalidSamplingConfig (.inl rfl)⟩
  | setSampling method clk out pass =>
    obtain ⟨e, -, ⟨c, -, rfl⟩ | ⟨-, rfl⟩⟩ := execSetSampling_next h
    · exact ⟨_, rfl, shaped_okResponse (by simp [Instr.mnemonic])⟩
    · exact ⟨_, rfl, shaped_invalidSamplingConfig (.inr rfl)⟩
  | reset =>
    obtain ⟨e, -, hk⟩ := onRunning_next h
    obtain rfl := Host.Outcome.next.inj hk
    exact ⟨_, rfl, shaped_okResponse (by simp [Instr.mnemonic])⟩
  | writeOutOfRange addr value stamp => exact ⟨_, writeCommand_response h, shaped_okResponse (by simp [Instr.mnemonic])⟩
  | read addr =>
    obtain ⟨data, hr⟩ := readCommand_response h
    exact ⟨_, hr, shaped_of_status_zero (by simp [Instr.mnemonic]) (fun _ => .inl rfl) (absurd rfl)⟩
  | readOutOfRange addr =>
    obtain ⟨data, hr⟩ := readCommand_response h
    exact ⟨_, hr, shaped_of_status_zero (by simp [Instr.mnemonic]) (fun _ => .inr rfl) (absurd rfl)⟩
  | clock n =>
    obtain ⟨e, e1, ss, -, -, -, rfl⟩ := clockCommand_next h
    exact ⟨_, rfl, shaped_of_status_zero (by simp [Instr.mnemonic]) (absurd rfl) fun _ => rfl⟩
  | reserved w =>
    obtain rfl := Host.Outcome.next.inj h
    exact ⟨_, rfl, shaped_reservedEncoding rfl⟩
  | _ => exact ⟨_, writeCommand_response ((exec_registerWrite rfl s).symm.trans h),
    shaped_okResponse (mnemonic_ne_reserved_of_registerWrite rfl)⟩

end

/-- Settles O26: command by command, the response has the instruction's shape. -/
theorem responsesHaveTheirShape : Obligations.ResponsesHaveTheirShape := fun _ _ _ h => exec_response_shaped h

end Sys2Proof.Machine


/-! SUPPORT. The host commands one by one: WRITE in its three cases, NEW, RESET, SETSAMPLING and a reserved word, which state admits a
command, how a word is taken, and CLOCK as a run of cycle steps that can be cut anywhere. -/

namespace Sys2Proof.Machine

/-! ### WRITE -/

section
variable {i : Instr} {a : RegAddr} {value stamp : Int} {s : State} {e : Engine}

/-- A register form of WRITE on a running engine (R105, R123 to R147). -/
theorem exec_registerWrite_running (hi : i.registerWrite = some (a, value, stamp)) (hs : s.inst = .running e)
    (hmax : stamp ≤ 9223372036854775807) : exec i s = .next (finish s (scheduleWrite a value stamp e) okResponse) :=
  (exec_registerWrite hi s).trans (writeCommand_register hs a value stamp hmax)

/-- A register form of WRITE stamped with the current cycle is APPLY (R105). -/
theorem exec_registerWrite_now (hi : i.registerWrite = some (a, value, e.cyc)) (hs : s.inst = .running e)
    (hmax : e.cyc ≤ 9223372036854775807) : exec i s = .next (finish s (applyWrite a value e) okResponse) := by
  rw [exec_registerWrite_running hi hs hmax, scheduleWrite_now]

end

/-- Settles O8: the due WRITE is APPLY, and APPLY to a data register only stores the masked byte. -/
theorem dueRegisterWriteStores : Obligations.DueRegisterWriteStores := by
  rintro i a value _ s e hi h4 h11 h18 hs rfl hmax
  rw [exec_registerWrite_now hi hs hmax, applyWrite_of_data (controlVoice_none.2 ⟨h4, h11, h18⟩), maskedValue_eq_mod_and_mask]
  rfl

/-- The gate edges as one update of the stage (R121). -/
theorem gateEdge_eq (gOld gNew : Bool) (x : Voice) :
    gateEdge gOld gNew x = { x with
      envState := if gOld = false ∧ gNew = true then .attack else if gOld = true ∧ gNew = false then .release else x.envState } := by
  cases gOld <;> cases gNew <;> rfl

/-- The fall of TEST as one update of the noise register (R122, R170). -/
theorem testEdge_eq (tOld tNew : Bool) (x : Voice) :
    testEdge tOld tNew x = { x with sr := if tOld = true ∧ tNew = false then 0x7FFFF8#23 else x.sr } := by
  cases tOld <;> cases tNew <;> rfl

/-- A control register keeps all eight bits (R23). -/
theorem maskedValue_of_control {a : RegAddr} {v : VoiceId} (ha : controlVoice a = some v) (value : Int) :
    maskedValue a value = BitVec.ofNat 8 (value % 256).toNat := by
  have hmask : mask a = BitVec.allOnes 8 := by
    revert a v; decide
  rw [maskedValue, hmask, BitVec.and_allOnes, ofInt_byte_eq_mod]

/-- APPLY to a control register stores the byte and lets the edges of its bits act on its voice (R120 to R122). -/
theorem applyWrite_of_control {a : RegAddr} {v : VoiceId} (ha : controlVoice a = some v) (value : Int) (e : Engine) :
    applyWrite a value e =
      modifyVoice (writeReg e a (maskedValue a value)) v fun x =>
        testEdge ((readReg e a).getLsbD 3) ((maskedValue a value).getLsbD 3)
          (gateEdge ((readReg e a).getLsbD 0) ((maskedValue a value).getLsbD 0) x) := by
  simp only [applyWrite, ha]

/-- Settles O9: the due WRITE is APPLY, whose two edges are updates of the stage and of the noise register. -/
theorem dueControlWriteMovesItsVoice : Obligations.DueControlWriteMovesItsVoice := by
  rintro i a v value _ s e _ _ _ hi ha hs rfl hmax rfl rfl rfl
  have hv : controlVoice a = some v := controlVoice_some.2 ha
  rw [exec_registerWrite_now hi hs hmax, applyWrite_of_control hv, maskedValue_of_control hv]
  simp only [testEdge_eq, gateEdge_eq]
  rfl

/-- A WRITE of the future only enters the queue (R105). -/
theorem scheduleWrite_future (a : RegAddr) (value : Int) {stamp : Int} {e : Engine} (h : e.cyc < stamp) :
    scheduleWrite a value stamp e = { e with wq := insertPending { stamp := stamp, addr := a, value := value } e.wq } := by
  obtain ⟨hlt, -⟩ | ⟨heq, -⟩ | ⟨-, hw⟩ := scheduleWrite_cases a value stamp e
  · omega
  · omega
  · exact hw

/-- Settles O10: the WRITE inserts its entry, and `insertPending_split` says where. -/
theorem futureWriteIsQueued : Obligations.FutureWriteIsQueued := by
  intro i a value stamp s e hi hs hlt hmax
  obtain ⟨pre, post, hq, hins, hpost, hlast⟩ := insertPending_split { stamp := stamp, addr := a, value := value } e.wq
  refine ⟨pre, post, hq, hpost, hlast, ?_⟩
  rw [exec_registerWrite_running hi hs hmax, scheduleWrite_future a value hlt, hins]
  rfl

/-- A WRITE of the past is APPLY with the flag of a late write raised (R105, R292). -/
theorem scheduleWrite_past (a : RegAddr) (value : Int) {stamp : Int} {e : Engine} (h : stamp < e.cyc) :
    scheduleWrite a value stamp e = applyWrite a value (raiseFlag .nonMonotonicCycleWrite e) := by
  obtain ⟨-, hw⟩ | ⟨heq, -⟩ | ⟨hgt, -⟩ := scheduleWrite_cases a value stamp e
  · exact hw
  · omega
  · omega

/-- APPLY neither sees nor changes the flags, so the flag of a late write may be raised after it (R120). -/
theorem applyWrite_raiseFlag_nmw (a : RegAddr) (value : Int) (e : Engine) :
    applyWrite a value (raiseFlag .nonMonotonicCycleWrite e) = raiseFlag .nonMonotonicCycleWrite (applyWrite a value e) := by
  cases hv : controlVoice a with
  | none => rw [applyWrite_of_data hv, applyWrite_of_data hv]; rfl
  | some v => rw [applyWrite_of_control hv, applyWrite_of_control hv]; rfl

/-- Settles O11: both WRITEs are APPLY, and the late one raises its flag besides. -/
theorem pastWriteIsClampedAndFlagged : Obligations.PastWriteIsClampedAndFlagged := by
  intro i j a value stamp s e hi hj hs hlt hmax
  refine ⟨applyWrite a value e, exec_registerWrite_now hj hs hmax, applyWrite_diag .., applyWrite_wq .., ?_⟩
  rw [exec_registerWrite_running hi hs (hlt.le.trans hmax), scheduleWrite_past a value hlt, applyWrite_raiseFlag_nmw]
  simp only [raiseFlag, applyWrite_diag]
  rfl

/-- A bounded queue is full from its depth on (R105 (e)). -/
theorem queueIsFull_of_depth {c : Config.Tables} {d : Nat} (h : c.wqDepth = some d) (e : Engine) :
    queueIsFull c e = decide (d ≤ e.wq.length) := by
  simp only [queueIsFull, h]

/-- WRITE to a register on a running engine, under any record: only a full queue stands in its way up to CYCLE_MAX (R105, R304). -/
theorem writeCommand_of_le_cycleMax {c : Config.Tables} {s : State} {e : Engine} (hs : s.inst = .running e) (a : RegAddr)
    (value : Int) {stamp : Int} (hmax : stamp ≤ cycleMax c) :
    writeCommand c a.val value stamp s =
      if queueIsFull c e then .refused .queueFull else .next (finish s (scheduleWrite a value stamp e) okResponse) := by
  simp only [writeCommand, onRunning_running hs, registerAt_val, if_neg (not_lt.2 hmax)]

/-- Settles O14: on either side of the bound, the one check that is left decides. -/
theorem fullQueueRefusesAWrite : Obligations.FullQueueRefusesAWrite := by
  intro c d a value stamp s e hd hs hmax
  rw [writeCommand_of_le_cycleMax hs a value hmax, queueIsFull_of_depth hd]
  refine ⟨fun hfull => ?_, fun hroom => ⟨finish s (scheduleWrite a value stamp e) okResponse, ?_⟩⟩
  · simp [hfull]
  · simp [hroom]

/-! ### NEW, RESET, SETSAMPLING, RESERVED -/

/-- The codes of the chip models (R83). -/
theorem modelOfCode_of_lt {code : BitVec 2} (h : code.toNat < 2) :
    modelOfCode code = some (if code.toNat = 0 then .mos6581 else .mos8580) := by
  revert code; decide

/-- The codes of the sampling methods (R84). -/
theorem methodOfCode_of_lt {code : BitVec 3} (h : code.toNat < 4) :
    methodOfCode code = some (if code.toNat = 0 then .fast else if code.toNat = 1 then .interpolate
      else if code.toNat = 2 then .resample else .resampleFastmem) := by
  revert code; decide

/-- The configuration that valid operands name (R102). -/
theorem validSampling_of_valid {method : BitVec 3} {clk out : Int} (hmethod : method.toNat < 4) (hclk : 0 < clk) (hout : 0 < out)
    (pass : Option Int) :
    validSampling method clk out pass = some
      { method := if method.toNat = 0 then .fast else if method.toNat = 1 then .interpolate
          else if method.toNat = 2 then .resample else .resampleFastmem
        clk := clk.toNat, out := out.toNat, pass := pass } :=
  validSampling_some.2 ⟨_, methodOfCode_of_lt hmethod, hclk, hout, rfl⟩

/-- NEW whose codes and rates name a model and a configuration (R101). -/
theorem execNew_of_valid {model : BitVec 2} {method : BitVec 3} {clk out : Int} {pass : Option Int} {m : ChipModel}
    {c : SamplingConfig} {s : State} (hs : s.inst = .unconstructed) (hm : modelOfCode model = some m)
    (hc : validSampling method clk out pass = some c) :
    execNew model method clk out pass s = .next (finish s (construct m c) okResponse) := by
  simp only [execNew, hs, hm, hc]

/-- SETSAMPLING whose operands name a configuration (R103). -/
theorem execSetSampling_of_valid {method : BitVec 3} {clk out : Int} {pass : Option Int} {c : SamplingConfig} {s : State}
    {e : Engine} (hs : s.inst = .running e) (hc : validSampling method clk out pass = some c) :
    execSetSampling method clk out pass s = .next (finish s (resamplerReset { e with samp := c }) okResponse) := by
  rw [execSetSampling, onRunning_running hs, hc]

/-- Settles O20: the codes name a model and a configuration, and the engine constructed from them is the power-on one. -/
theorem newConstructsThePowerOnEngine : Obligations.NewConstructsThePowerOnEngine :=
  fun _ _ _ _ pass _ hs hmodel hmethod hclk hout =>
    execNew_of_valid hs (modelOfCode_of_lt hmodel) (validSampling_of_valid hmethod hclk hout pass)

/-- Settles O21: RESET on a running engine is POWER_ON. -/
theorem resetRestoresPowerOn : Obligations.ResetRestoresPowerOn := fun _ _ hs => onRunning_running hs _

/-- Settles O22: valid operands name a configuration, which is stored before the resampler is reset. -/
theorem setSamplingResetsTheResamplerOnly : Obligations.SetSamplingResetsTheResamplerOnly :=
  fun _ _ _ pass _ _ hs hmethod hclk hout => execSetSampling_of_valid hs (validSampling_of_valid hmethod hclk hout pass)

/-- Settles O25: a reserved word is taken as its error class, with status 5 and nothing else. -/
theorem reservedWordReturnsStatusFive : Obligations.ReservedWordReturnsStatusFive := fun _ _ => rfl

/-! ### Which state admits a command -/

/-- Without an engine every command but NEW and a reserved word is refused (R109). -/
theorem exec_unconstructed {i : Instr} {s : State} (hs : s.inst = .unconstructed) (hnew : i.mnemonic ≠ "NEW")
    (hres : i.mnemonic ≠ "RESERVED") : exec i s = .refused .notConstructed := by
  cases i with
  | new => exact absurd rfl hnew
  | reserved => exact absurd rfl hres
  | _ => exact onRunning_unconstructed hs _

/-- NEW is the only instruction with its mnemonic. -/
theorem eq_new_of_mnemonic {i : Instr} (h : i.mnemonic = "NEW") :
    ∃ model method clk out pass, i = .new model method clk out pass := by
  cases i with
  | new model method clk out pass => exact ⟨model, method, clk, out, pass, rfl⟩
  | _ => simp [Instr.mnemonic] at h

theorem execNew_running {s : State} {e : Engine} (hs : s.inst = .running e) (model : BitVec 2) (method : BitVec 3) (clk out : Int)
    (pass : Option Int) : execNew model method clk out pass s = .refused .alreadyConstructed := by
  simp only [execNew, hs]

/-- Settles O24: all commands but two ask for an engine first, and NEW asks for none. -/
theorem commandsNeedTheirInstanceState : Obligations.CommandsNeedTheirInstanceState := by
  refine ⟨fun _ _ hs hnew hres => exec_unconstructed hs hnew hres, fun i s e hs hnew => ?_⟩
  obtain ⟨model, method, clk, out, pass, rfl⟩ := eq_new_of_mnemonic hnew
  exact execNew_running hs model method clk out pass

/-! ### Taking a command word -/

/-- A step on an inbox with a word in it (R11, R100). -/
theorem step_of_inbox_cons {s : State} {w : CmdWord} {rest : List CmdWord} (h : s.inbox = w :: rest) :
    step s = exec (decode w) { s with inbox := rest } := by
  rw [← stepUnder_tables, stepUnder_of_inbox_cons tables h, execUnder_tables]

/-- Settles O6: with a word issued the step executes it, without one it is refused. -/
theorem stepExecutesTheDecodedCommand : Obligations.StepExecutesTheDecodedCommand :=
  ⟨fun _ _ _ h => step_of_inbox_cons h, fun s h => (stepUnder_tables s).symm.trans (stepUnder_of_inbox_nil tables h)⟩

/-- The step on a placed word executes it on the state that admits it (log entry 3). -/
theorem step_withFetchWord (s : State) (nbits w : Nat) :
    step (s.withFetchWord nbits w) =
      exec (decode (tableWord nbits w)) { s with inst := admitting (decode (tableWord nbits w)) s.inst } :=
  step_of_inbox_cons rfl

/-- A running engine admits every command but NEW as it stands (R109). -/
theorem admitting_running {i : Instr} (h : i.mnemonic ≠ "NEW") (e : Engine) : admitting i (.running e) = .running e := by
  cases i with
  | new => exact absurd rfl h
  | _ => rfl

theorem admitting_new {i : Instr} (h : i.mnemonic = "NEW") (x : Instance) : admitting i x = .unconstructed := by
  obtain ⟨model, method, clk, out, pass, rfl⟩ := eq_new_of_mnemonic h
  rfl

/-- Settles O7: the placed word runs on the state `admitting` gives it, which in the two common cases is the state itself. -/
theorem placedWordRunsNext : Obligations.PlacedWordRunsNext := by
  intro s nbits w
  rw [step_withFetchWord]
  refine ⟨⟨_, rfl⟩, fun e hs hne => ?_, fun hs hnew => ?_⟩
  · rw [hs, admitting_running hne, ← hs]
  · rw [admitting_new hnew, ← hs]

/-! ### CLOCK -/

section
variable {t : Config.Tables} {s : State} {e e1 e2 : Engine} {ss ss1 ss2 : List Sample} {m n : Nat}

/-- A CLOCK within CYCLE_MAX whose run of cycle steps completes (R107). -/
theorem exec_clock_of_run {k : Int} (hs : s.inst = .running e) (hmax : e.cyc + max k 0 ≤ 9223372036854775807)
    (h : runCycles tables k.toNat e = .ok (e1, ss)) :
    exec (.clock k) s = .next (finish s e1 { status := 0, data := 0, samples := ss }) := by
  rw [exec_clock, clockCommand, onRunning_running hs, if_neg (by rw [cycleMax_tables]; exact not_lt.2 hmax), h]

/-- To finish with the engine as it was is to respond. -/
theorem finish_of_running (hs : s.inst = .running e) (r : Response) : finish s e r = respond s r := by
  rw [finish, ← hs]; rfl

/-- A run of cycle steps and another from where it ends are one run (R107 (d)). -/
theorem runCycles_append (h1 : runCycles t m e = .ok (e1, ss1)) (h2 : runCycles t n e1 = .ok (e2, ss2)) :
    runCycles t (m + n) e = .ok (e2, ss1 ++ ss2) := by
  induction n generalizing e2 ss2 with
  | zero =>
    obtain ⟨rfl, rfl⟩ := Prod.mk.inj (Except.ok.inj h2)
    simpa using h1
  | succ n ih =>
    obtain ⟨e3, ss3, ss4, hr, hc, rfl⟩ := runCycles_succ_last h2
    rw [← List.append_assoc]
    exact runCycles_snoc (ih hr) hc

/-- A run of cycle steps that completes can be cut anywhere (R107 (d)). -/
theorem runCycles_split (h : runCycles t (m + n) e = .ok (e2, ss)) :
    ∃ e1 ss1 ss2, runCycles t m e = .ok (e1, ss1) ∧ runCycles t n e1 = .ok (e2, ss2) ∧ ss = ss1 ++ ss2 := by
  induction n generalizing e2 ss with
  | zero => exact ⟨e2, ss, [], h, rfl, by simp⟩
  | succ n ih =>
    obtain ⟨e3, ss3, ss4, hr, hc, rfl⟩ := runCycles_succ_last h
    obtain ⟨e1, ss1, ss2, h1, h2, rfl⟩ := ih hr
    exact ⟨e1, ss1, ss2 ++ ss4, h1, runCycles_snoc h2 hc, by simp⟩

end

/-- Settles O27: no cycle step is run, so the engine is the one there was. -/
theorem clockOfNothingRunsNothing : Obligations.ClockOfNothingRunsNothing := by
  intro k s e hs hk hmax
  have hrun : runCycles tables k.toNat e = .ok (e, []) := by rw [Int.toNat_of_nonpos hk]; rfl
  rw [exec_clock_of_run hs (by omega) hrun, finish_of_running hs]
  rfl

/-- Settles O30: the two runs of cycle steps are one run, which can be cut again. -/
theorem clockSplitsAnywhere : Obligations.ClockSplitsAnywhere := by
  intro a b s ha hb
  have hab : (a + b).toNat = a.toNat + b.toNat := Int.toNat_add ha hb
  refine ⟨fun t u ss1 ss2 h1 h2 ht hu => ?_, fun u h => ?_⟩
  · rw [exec_clock] at h1 h2
    obtain ⟨e, e1, ss1', hs, -, hrun1, rfl⟩ := clockCommand_next h1
    obtain ⟨e1', e2, ss2', he1, hmax, hrun2, rfl⟩ := clockCommand_next h2
    obtain rfl := Instance.running.inj he1
    obtain rfl : ss1' = ss1 := congrArg Response.samples (Option.some.inj ht)
    obtain rfl : ss2' = ss2 := congrArg Response.samples (Option.some.inj hu)
    obtain ⟨-, -, hcyc, -⟩ := runCycles_frame hrun1
    have hrun := runCycles_append hrun1 hrun2
    rw [← hab] at hrun
    rw [cycleMax_tables] at hmax
    exact exec_clock_of_run hs (by omega) hrun
  · obtain ⟨e, e2, ss, hs, hmax, hrun, rfl⟩ := clockCommand_next h
    rw [hab] at hrun
    obtain ⟨e1, ss1, ss2, hrun1, hrun2, rfl⟩ := runCycles_split hrun
    obtain ⟨-, -, hcyc, -⟩ := runCycles_frame hrun1
    rw [cycleMax_tables] at hmax
    exact ⟨_, _, ss1, ss2, exec_clock_of_run hs (by omega) hrun1, exec_clock_of_run (finish_inst ..) (by omega) hrun2, rfl, rfl,
      rfl, rfl⟩

/-- A run that ends before the first stamp of the queue leaves the registers and the queue (R262). -/
theorem runCycles_of_none_due {t : Config.Tables} {n : Nat} {e e1 : Engine} {ss : List Sample}
    (h : runCycles t n e = .ok (e1, ss)) (hq : ∀ p ∈ e.wq, e.cyc + n < p.stamp) : e1.reg = e.reg ∧ e1.wq = e.wq := by
  induction n generalizing e ss with
  | zero =>
    obtain ⟨rfl, -⟩ := Prod.mk.inj (Except.ok.inj h)
    exact ⟨rfl, rfl⟩
  | succ n ih =>
    obtain ⟨e2, ss1, ss2, hc, hr, -⟩ := runCycles_succ_ok h
    obtain ⟨-, -, hcyc, -, -⟩ := cycle_frame hc
    have hnext : ∀ p ∈ e.wq, e.cyc + 1 < p.stamp := fun p hp => by have := hq p hp; push_cast at this; omega
    obtain ⟨-, hreg, hwq⟩ := cycle_of_queue hc [] hnext (by simp)
    have hrest : ∀ p ∈ e2.wq, e2.cyc + n < p.stamp := fun p hp => by
      have := hq p (hwq ▸ hp); push_cast at this; omega
    obtain ⟨hreg', hwq'⟩ := ih hr hrest
    exact ⟨hreg'.trans hreg, hwq'.trans hwq⟩

/-- Settles O32: what a run of cycle steps leaves, and what it leaves besides when no entry falls due in it. -/
theorem clockKeepsWhatItMust : Obligations.ClockKeepsWhatItMust := by
  intro n s t e hs h
  obtain ⟨e', e1, ss, he, -, hrun, rfl⟩ := clockCommand_next h
  obtain rfl := Instance.running.inj (hs.symm.trans he)
  obtain ⟨hmodel, hsamp, hcyc, hdiag⟩ := runCycles_frame hrun
  rw [Int.ofNat_toNat] at hcyc
  refine ⟨e1, rfl, rfl, hmodel, hsamp, hdiag, hcyc, fun hq => runCycles_of_none_due hrun ?_⟩
  rwa [Int.ofNat_toNat]

/-! ### The idle filter -/

/-- Nothing is queued, the filter's state is 0, and no voice is routed to it: what O28 asks of the engine. -/
def Engine.FilterIdle (e : Engine) : Prop :=
  e.wq = [] ∧ e.filter = { vhp := 0, vbp := 0, vlp := 0 } ∧ ∀ v : VoiceId, filt e.reg v = false

/-- With no voice routed and EXT_IN = 0 the filter's input is 0 (R223, R225). -/
theorem mixed_fst_of_unrouted {e : Engine} (h : ∀ v : VoiceId, filt e.reg v = false) : (mixed tables e).1 = 0 := by
  have hext : tables.extIn = 0 := rfl
  simp [mixed, mixer, filteredPart, h, hext]

/-- Without input the recurrence stays at 0, whatever its coefficients (R244). -/
theorem filterUpdate_zero (w0 q : Int) :
    filterUpdate w0 q 0 { vhp := 0, vbp := 0, vlp := 0 } = { vhp := 0, vbp := 0, vlp := 0 } := by
  simp [filterUpdate, shiftDown]

theorem Engine.FilterIdle.filtered_eq {e : Engine} (h : e.FilterIdle) : filtered tables e = { vhp := 0, vbp := 0, vlp := 0 } := by
  obtain ⟨-, hfilter, hfilt⟩ := h
  rw [filtered, mixed_fst_of_unrouted hfilt, filterStep, voiceStages_filter, hfilter, filterUpdate_zero]

/-- A cycle step on an idle filter completes and leaves filter, registers and queue (R244, R249). -/
theorem Engine.FilterIdle.cycle_completes {e : Engine} (h : e.FilterIdle) :
    ∃ e1 ss, cycle tables e = .ok (e1, ss) ∧ e1.reg = e.reg ∧ e1.FilterIdle := by
  have hzero := h.filtered_eq
  have hc := cycle_of_inRange (hzero ▸ filterInRange_zero)
  obtain ⟨hwq, -, hfilt⟩ := h
  obtain ⟨-, -, -, -, hfilter⟩ := cycle_frame hc
  obtain ⟨-, hreg, hwq'⟩ := cycle_of_queue hc [] (by simp [hwq]) (by simp)
  exact ⟨_, _, hc, hreg, hwq'.trans hwq, hfilter.trans hzero, hreg ▸ hfilt⟩

/-- A run of any number of cycle steps on an idle filter completes and leaves it idle (R107, R244). -/
theorem Engine.FilterIdle.runCycles_completes {e : Engine} (h : e.FilterIdle) (n : Nat) :
    ∃ e1 ss, runCycles tables n e = .ok (e1, ss) ∧ e1.reg = e.reg ∧ e1.FilterIdle := by
  induction n with
  | zero => exact ⟨e, [], rfl, rfl, h⟩
  | succ n ih =>
    obtain ⟨e1, ss1, hr, hreg1, hidle⟩ := ih
    obtain ⟨e2, ss2, hc, hreg2, hidle'⟩ := hidle.cycle_completes
    exact ⟨e2, ss1 ++ ss2, runCycles_snoc hr hc, hreg2.trans hreg1, hidle'⟩

/-- Settles O28: an idle filter stays idle over the run, so no cycle step faults. -/
theorem clockCompletesOnAnIdleFilter : Obligations.ClockCompletesOnAnIdleFilter := by
  intro n s e hs hwq hfilter hfilt hmax
  obtain ⟨e1, ss, hrun, hreg, hwq1, hfilter1, -⟩ := Engine.FilterIdle.runCycles_completes (e := e) ⟨hwq, hfilter, hfilt⟩ n.toNat
  obtain ⟨hmodel, hsamp, hcyc, hdiag⟩ := runCycles_frame hrun
  rw [Int.ofNat_toNat] at hcyc
  exact ⟨e1, ss, exec_clock_of_run hs hmax hrun, hcyc, hmodel, hsamp, hdiag, hreg, hwq1, hfilter1⟩

end Sys2Proof.Machine


/-! SUPPORT. APPLY on its own: the whole engine after it, for a register that controls no voice and for one that controls a voice. -/

namespace Sys2Proof.Machine

theorem controlVoice_none_iff_forall {a : RegAddr} : controlVoice a = none ↔ ∀ v : VoiceId, a.val ≠ 7 * v.val + 4 := by
  simp only [Option.eq_none_iff_forall_ne_some, ne_eq, controlVoice_some]

/-- Settles O19: APPLY stores the masked byte, and its two edges are updates of the stage and of the noise register of the voice that
the register controls, if it controls one. -/
theorem applyStoresAndActsOnEdges : Obligations.ApplyStoresAndActsOnEdges := by
  rintro a value e _ rfl
  rw [← maskedValue_eq_mod_and_mask]
  cases hv : controlVoice a with
  | none => exact .inl ⟨controlVoice_none_iff_forall.1 hv, applyWrite_of_data hv value e⟩
  | some v =>
    refine .inr ⟨v, controlVoice_some.1 hv, ?_⟩
    rw [applyWrite_of_control hv]
    simp only [testEdge_eq, gateEdge_eq]
    rfl

end Sys2Proof.Machine


/-! SUPPORT. One cycle step seen from one voice: its accumulator and snapshot bits, its noise register, its waveform value, what it
depends on, and what holds along a CLOCK in which no queued write falls due. -/

namespace Sys2Proof.Machine

/-! ### A voice after one cycle step -/

section
variable {t : Config.Tables} {e e1 : Engine} {ss : List Sample}

/-- A cycle step leaves in the accumulator and in the snapshot bits what the oscillator stage put there, whatever falls due (R260). -/
theorem cycle_oscillator (h : cycle t e = .ok (e1, ss)) (v : VoiceId) :
    e1.voices[v].acc = (oscillateVoice t e v).1.acc ∧ e1.voices[v].snapMsb = (oscillateVoice t e v).1.snapMsb ∧
      e1.voices[v].snapFall = (oscillateVoice t e v).1.snapFall := by
  obtain ⟨-, rfl, -⟩ := cycle_ok h
  obtain ⟨hacc, hmsb, hfall, -⟩ :=
    applyDue_voice_frame { (resampleStep t (pipeline t e).1 (pipeline t e).2).1 with cyc := e.cyc + 1 } v
  obtain ⟨hacc', -, hmsb', hfall'⟩ := envelopeVoice_frame t e.reg v (oscillateVoice t e v).1
  rw [hacc, hmsb, hfall, resampleStep_voices, pipeline_voices, voiceStages_voice]
  exact ⟨hacc', hmsb', hfall'⟩

/-- A voice after a cycle step in which no write falls due: the oscillator stage, then the envelope stage (R261). -/
theorem cycle_voice_of_none_due (h : cycle t e = .ok (e1, ss)) (hq : ∀ p ∈ e.wq, e.cyc + 1 < p.stamp) (v : VoiceId) :
    e1.voices[v] = envelopeVoice t e.reg v (oscillateVoice t e v).1 := by
  obtain ⟨-, rfl, -⟩ := cycle_ok h
  rw [applyDue_of_none_due (by simpa using hq), resampleStep_voices, pipeline_voices, voiceStages_voice]

/-- With no write falling due the noise register is the oscillator stage's. -/
theorem cycle_sr_of_none_due (h : cycle t e = .ok (e1, ss)) (hq : ∀ p ∈ e.wq, e.cyc + 1 < p.stamp) (v : VoiceId) :
    e1.voices[v].sr = (oscillateVoice t e v).1.sr := by
  obtain ⟨-, hsr, -⟩ := envelopeVoice_frame t e.reg v (oscillateVoice t e v).1
  rw [cycle_voice_of_none_due h hq, hsr]

/-- What every cycle step with no write falling due keeps, a run with no write falling due keeps (R107, R262). -/
theorem runCycles_induction {P : Engine → Prop}
    (hstep : ∀ e e1 ss, (∀ p ∈ e.wq, e.cyc + 1 < p.stamp) → cycle t e = .ok (e1, ss) → P e → P e1) {n : Nat}
    (h : runCycles t n e = .ok (e1, ss)) (hq : ∀ p ∈ e.wq, e.cyc + n < p.stamp) (hP : P e) : P e1 := by
  induction n generalizing e1 ss with
  | zero =>
    obtain ⟨rfl, -⟩ := Prod.mk.inj (Except.ok.inj h)
    exact hP
  | succ n ih =>
    obtain ⟨e2, ss1, ss2, hr, hc, -⟩ := runCycles_succ_last h
    push_cast at hq
    have hbefore : ∀ p ∈ e.wq, e.cyc + n < p.stamp := fun p hp => by have := hq p hp; omega
    obtain ⟨-, hwq⟩ := runCycles_of_none_due hr hbefore
    obtain ⟨-, -, hcyc, -⟩ := runCycles_frame hr
    have hlast : ∀ p ∈ e2.wq, e2.cyc + 1 < p.stamp := fun p hp => by have := hq p (hwq ▸ hp); omega
    exact hstep e2 e1 ss2 hlast hc (ih hr hbefore)

end

/-- CLOCK on a running engine is its run of cycle steps (R107). -/
theorem exec_clock_next {n : Int} {s t : State} {e e1 : Engine} (hs : s.inst = .running e) (h : exec (.clock n) s = .next t)
    (ht : t.inst = .running e1) : ∃ ss, runCycles tables n.toNat e = .ok (e1, ss) := by
  rw [exec_clock] at h
  obtain ⟨e', e2, ss, he, -, hr, rfl⟩ := clockCommand_next h
  obtain rfl := Instance.running.inj (hs.symm.trans he)
  obtain rfl := Instance.running.inj ht
  exact ⟨ss, hr⟩

/-! ### The accumulator and the snapshot bits -/

theorem eq_sourceVoice {v u : VoiceId} (h : u.val = (v.val + 2) % 3) : u = sourceVoice v :=
  Fin.ext (h.trans (Fin.val_add v 2).symm)

/-- The top bit of an accumulator says whether it is in the upper half of its range. -/
theorem topBit_eq_decide (acc : BitVec 24) : acc.getLsbD 23 = decide (2 ^ 23 ≤ acc.toNat) :=
  (BitVec.msb_eq_getLsbD_last acc).symm.trans (BitVec.msb_eq_decide acc)

/-- The accumulator update in numbers: TEST, hard sync, or the sum modulo 2^24 (R161, R162, R165). -/
theorem nextAcc_toNat (r : RegFile) (v : VoiceId) (srcFall : Bool) (acc : BitVec 24) :
    (nextAcc r v srcFall acc).toNat =
      if (voiceReg r v 4).getLsbD 3 = true then 0
      else if (voiceReg r v 4).getLsbD 1 = true ∧ srcFall = true then 0
      else (acc.toNat + (256 * (voiceReg r v 1).toNat + (voiceReg r v 0).toNat)) % 2 ^ 24 := by
  change _ = if testBit r v = true then 0 else if sync r v = true ∧ srcFall = true then 0 else _
  unfold nextAcc
  by_cases htest : testBit r v = true
  · rw [if_pos htest, if_pos htest]; rfl
  · have hsync : syncResets r v srcFall = true ↔ sync r v = true ∧ srcFall = true := by simp [syncResets, htest]
    rw [if_neg htest, if_neg htest]
    simp only [hsync]
    split
    · rfl
    · rw [BitVec.toNat_add, BitVec.toNat_setWidth_of_le (by decide), freq_toNat]

/-- With TEST set the accumulator goes to 0 (R162). -/
theorem nextAcc_of_test {r : RegFile} {v : VoiceId} (h : testBit r v = true) (srcFall : Bool) (acc : BitVec 24) :
    nextAcc r v srcFall acc = 0 := if_pos h

/-- Settles O35: the oscillator stage's accumulator and snapshot bits outlast the rest of the step, due writes included. -/
theorem accumulatorAndSnapshotStep : Obligations.AccumulatorAndSnapshotStep := by
  intro s t e e1 v u hs h ht hu
  obtain rfl := eq_sourceVoice hu
  obtain ⟨ss, hc⟩ := exec_clock_one_next hs h ht
  obtain ⟨hacc, hmsb, hfall⟩ := cycle_oscillator hc v
  rw [hmsb, hfall, hacc]
  refine ⟨nextAcc_toNat .., topBit_eq_decide _, ?_⟩
  show topBitFalls e.voices[v].acc (oscillateVoice tables e v).1.acc = _
  rw [topBitFalls, falls, topBit_eq_decide, topBit_eq_decide, Bool.decide_and, ← decide_not]
  simp only [not_le]

/-! ### The noise register -/

/-- The noise register after its clocking and before the write-back (R171). -/
def clockedNoise (e : Engine) (v : VoiceId) : BitVec 23 :=
  if noiseClocks (testBit e.reg v) e.voices[v].acc (nextAcc e.reg v e.voices[sourceVoice v].snapFall e.voices[v].acc) then
    shiftNoise e.voices[v].sr
  else e.voices[v].sr

/-- The noise register after the oscillator stage: clocked, then written back where R176 says so. -/
theorem oscillateVoice_sr (t : Config.Tables) (e : Engine) (v : VoiceId) :
    (oscillateVoice t e v).1.sr =
      if noiseWritesBack e.reg v then writeBackNoise (waveforms t e v) (clockedNoise e v) else clockedNoise e v := rfl

theorem noiseClocks_iff {test : Bool} {acc acc' : BitVec 24} :
    noiseClocks test acc acc' = true ↔ test = false ∧ acc.getLsbD 19 = false ∧ acc'.getLsbD 19 = true := by
  simp [noiseClocks, rises]

/-- The write-back of R176, by the control register: NOISE, another waveform, no TEST. -/
theorem noiseWritesBack_iff {r : RegFile} {v : VoiceId} :
    noiseWritesBack r v = true ↔
      (voiceReg r v 4).getLsbD 7 = true ∧ (voiceReg r v 4).toNat / 16 % 8 ≠ 0 ∧ (voiceReg r v 4).getLsbD 3 = false := by
  have hnoise : (waveSelect r v).getLsbD 3 = (voiceReg r v 4).getLsbD 7 := by simp [waveSelect, controlByte]
  have hother : (waveSelect r v).extractLsb' 0 3 = 0#3 ↔ (voiceReg r v 4).toNat / 16 % 8 = 0 := by
    rw [← BitVec.toNat_inj, toNat_low_bits, waveSelect, toNat_high_nibble]
    rfl
  simp only [noiseWritesBack, hnoise, testBit, controlByte, Bool.and_eq_true, Bool.not_eq_true', beq_eq_false_iff_ne, ne_eq, hother,
    and_assoc]

/-- The bit fed back into the register, as a number (R171). -/
theorem toNat_ofBool_xor_bits {n : Nat} (x : BitVec n) (i j : Nat) :
    (BitVec.ofBool (Bool.xor (x.getLsbD i) (x.getLsbD j))).toNat = (x.toNat / 2 ^ i + x.toNat / 2 ^ j) % 2 := by
  have hxor : ∀ a b : Bool, (Bool.xor a b).toNat = (a.toNat + b.toNat) % 2 := by decide
  rw [BitVec.toNat_ofBool, hxor, BitVec.getLsbD, BitVec.getLsbD, Nat.toNat_testBit, Nat.toNat_testBit, ← Nat.add_mod]

/-- One shift in numbers: doubled modulo 2^23, with the sum of bits 22 and 17 modulo 2 entering below (R171). -/
theorem shiftNoise_toNat (sr : BitVec 23) :
    (shiftNoise sr).toNat = 2 * sr.toNat % 2 ^ 23 + (sr.toNat / 2 ^ 22 + sr.toNat / 2 ^ 17) % 2 := by
  have hshift : sr.toNat <<< 1 % 2 ^ 23 = (sr.toNat % 2 ^ 22) <<< 1 := by
    simp only [Nat.shiftLeft_eq]; omega
  have hbit : (sr.toNat / 2 ^ 22 + sr.toNat / 2 ^ 17) % 2 < 2 ^ 1 := Nat.mod_lt _ (by decide)
  rw [shiftNoise, BitVec.toNat_or, BitVec.toNat_shiftLeft, BitVec.toNat_setWidth_of_le (by decide), toNat_ofBool_xor_bits, hshift,
    ← Nat.shiftLeft_add_eq_or_of_lt hbit, Nat.shiftLeft_eq]
  omega

theorem clockedNoise_toNat (e : Engine) (v : VoiceId) :
    (clockedNoise e v).toNat =
      if (voiceReg e.reg v 4).getLsbD 3 = false ∧ e.voices[v].acc.getLsbD 19 = false ∧
          (nextAcc e.reg v e.voices[sourceVoice v].snapFall e.voices[v].acc).getLsbD 19 = true
      then 2 * e.voices[v].sr.toNat % 2 ^ 23 + (e.voices[v].sr.toNat / 2 ^ 22 + e.voices[v].sr.toNat / 2 ^ 17) % 2
      else e.voices[v].sr.toNat := by
  rw [clockedNoise, apply_ite BitVec.toNat, shiftNoise_toNat]
  simp only [noiseClocks_iff]
  rfl

/-- Clearing bits tap by tap: bit `k` stays exactly when every tap at `k` reads 1 in `w` (R176). -/
theorem getLsbD_foldl_clear (w : Wave) (taps : List (Nat × Nat)) (x : BitVec 23) (k : Nat) :
    (taps.foldl (fun x (p : Nat × Nat) => if w.getLsbD p.1 then x else x &&& ~~~BitVec.twoPow 23 p.2) x).getLsbD k =
      (x.getLsbD k && taps.all fun p => p.2 != k || w.getLsbD p.1) := by
  induction taps generalizing x with
  | nil => simp
  | cons p ps ih =>
    rw [List.foldl_cons, ih, List.all_cons, ← Bool.and_assoc]
    congr 1
    by_cases hk : k < 23
    · cases hw : w.getLsbD p.1
      · rcases eq_or_ne p.2 k with rfl | hp
        · simp [hk]
        · simp [hp, hp.symm, hk]
      · simp
    · have hx : ∀ y : BitVec 23, y.getLsbD k = false := fun y => BitVec.getLsbD_of_ge y k (not_lt.1 hk)
      rw [hx, hx]; rfl

theorem writeBackNoise_getLsbD (w : Wave) (sr : BitVec 23) (k : Nat) :
    (writeBackNoise w sr).getLsbD k = (sr.getLsbD k && noiseTaps.all fun p => p.2 != k || w.getLsbD p.1) :=
  getLsbD_foldl_clear w noiseTaps sr k

/-- A tap bit is ANDed with the output bit it feeds: no two taps share a bit of the register (R176). -/
theorem writeBackNoise_tap (w : Wave) (sr : BitVec 23) {p : Nat × Nat} (hp : p ∈ noiseTaps) :
    (writeBackNoise w sr).getLsbD p.2 = (sr.getLsbD p.2 && w.getLsbD p.1) := by
  rw [writeBackNoise_getLsbD]
  congr 1
  simp only [noiseTaps, List.mem_cons, List.not_mem_nil, or_false] at hp
  rcases hp with rfl | rfl | rfl | rfl | rfl | rfl | rfl | rfl <;> simp [noiseTaps]

/-- A bit that is no tap stays (R176). -/
theorem writeBackNoise_of_no_tap (w : Wave) (sr : BitVec 23) {k : Nat} (hk : ∀ p ∈ noiseTaps, p.2 ≠ k) :
    (writeBackNoise w sr).getLsbD k = sr.getLsbD k := by
  have hall : (noiseTaps.all fun p => p.2 != k || w.getLsbD p.1) = true :=
    List.all_eq_true.2 fun p hp => by simp [hk p hp]
  rw [writeBackNoise_getLsbD, hall, Bool.and_true]

/-- Settles O36: with no write falling due the step ends on the oscillator stage's register, clocked and then written back. -/
theorem noiseRegisterStep : Obligations.NoiseRegisterStep := by
  intro s t e e1 v sr1 hs h ht hq hsr1
  obtain ⟨ss, hc⟩ := exec_clock_one_next hs h ht
  obtain ⟨hacc, -⟩ := cycle_oscillator hc v
  rw [hacc] at hsr1
  obtain rfl : sr1 = clockedNoise e v := BitVec.eq_of_toNat_eq (hsr1.trans (clockedNoise_toNat e v).symm)
  rw [cycle_sr_of_none_due hc hq, oscillateVoice_sr]
  refine ⟨fun hno => if_neg fun hback => ?_, fun hnoise hother htest => ?_⟩
  · obtain ⟨hnoise, hother, htest⟩ := noiseWritesBack_iff.1 hback
    rcases hno with hno | hno | hno
    · exact absurd (hno.symm.trans hnoise) (by decide)
    · exact hother hno
    · exact absurd (hno.symm.trans htest) (by decide)
  · rw [if_pos (noiseWritesBack_iff.2 ⟨hnoise, hother, htest⟩)]
    refine ⟨fun p hp => writeBackNoise_tap _ _ hp, fun k hk => writeBackNoise_of_no_tap _ _ fun p hp hpk => hk ?_⟩
    exact hpk ▸ List.mem_map_of_mem (f := Prod.snd) hp

/-- A register that is 0 is 0 after a shift: it feeds itself 0 (R171). -/
theorem shiftNoise_zero : shiftNoise 0 = 0 := by decide

/-- The write-back sets no bit (R176). -/
theorem writeBackNoise_zero (w : Wave) : writeBackNoise w 0 = 0 :=
  BitVec.eq_of_getLsbD_eq fun k _ => by rw [writeBackNoise_getLsbD]; simp

/-- The oscillator stage keeps a locked noise register locked (R171, R176). -/
theorem oscillateVoice_locked {t : Config.Tables} {e : Engine} {v : VoiceId} (h : e.voices[v].sr = 0) :
    (oscillateVoice t e v).1.sr = 0 := by
  have hclocked : clockedNoise e v = 0 := by rw [clockedNoise, h, shiftNoise_zero, ite_self]
  rw [oscillateVoice_sr, hclocked, writeBackNoise_zero, ite_self]

/-- Settles O37: each step keeps the register 0, and so does the run. -/
theorem lockedNoiseRegisterStaysLocked : Obligations.LockedNoiseRegisterStaysLocked := by
  intro n s t e e1 v hs h ht hq hlocked
  obtain ⟨ss, hr⟩ := exec_clock_next hs h ht
  rw [← Int.ofNat_toNat] at hq
  refine runCycles_induction (P := fun x => x.voices[v].sr = 0) (fun x x1 _ hqx hc hx => ?_) hr hq hlocked
  rw [cycle_sr_of_none_due hc hqx, oscillateVoice_locked hx]

/-! ### TEST -/

/-- With TEST set the oscillator stage freezes the noise register (R162, R171, R176). -/
theorem oscillateVoice_sr_of_test {t : Config.Tables} {e : Engine} {v : VoiceId} (h : testBit e.reg v = true) :
    (oscillateVoice t e v).1.sr = e.voices[v].sr := by
  rw [oscillateVoice_sr, clockedNoise, if_neg (by simp [noiseWritesBack, h]), if_neg (by simp [noiseClocks, h])]

/-- Settles O38: every step freezes the noise register, and the last one leaves the accumulator at 0. -/
theorem testBitHoldsTheOscillator : Obligations.TestBitHoldsTheOscillator := by
  intro n s t e e1 v hs hn h ht hq htest
  obtain ⟨ss, hr⟩ := exec_clock_next hs h ht
  have hq' : ∀ p ∈ e.wq, e.cyc + (n.toNat : Int) < p.stamp := by rwa [Int.toNat_of_nonneg hn.le]
  refine ⟨?_, ?_⟩
  · obtain ⟨m, hm⟩ : ∃ m, n.toNat = m + 1 := ⟨n.toNat - 1, by omega⟩
    rw [hm] at hr hq'
    obtain ⟨e2, ss1, ss2, hfirst, hlast, -⟩ := runCycles_succ_last hr
    obtain ⟨hreg, -⟩ := runCycles_of_none_due hfirst fun p hp => by have := hq' p hp; push_cast at this; omega
    obtain ⟨hacc, -⟩ := cycle_oscillator hlast v
    exact hacc.trans (nextAcc_of_test (by rw [hreg]; exact htest) ..)
  · have hfrozen : testBit e1.reg v = true ∧ e1.voices[v].sr = e.voices[v].sr := by
      refine runCycles_induction (P := fun x => testBit x.reg v = true ∧ x.voices[v].sr = e.voices[v].sr) ?_ hr hq' ⟨htest, rfl⟩
      rintro x x1 _ hqx hc ⟨hxtest, hxsr⟩
      obtain ⟨-, hreg, -⟩ := cycle_of_queue hc [] hqx (by simp)
      rw [hreg, cycle_sr_of_none_due hc hqx, oscillateVoice_sr_of_test hxtest]
      exact ⟨hxtest, hxsr⟩
    exact hfrozen.2

/-! ### What a voice depends on -/

section
variable {r r' : RegFile} {v : VoiceId}

/-- The decoded views of a voice are functions of its seven registers (R24 to R28). -/
theorem voice_views_congr (h : ∀ k : Fin 7, voiceReg r v k = voiceReg r' v k) :
    freq r v = freq r' v ∧ pulseWidth r v = pulseWidth r' v ∧ controlByte r v = controlByte r' v ∧
      attackRate r v = attackRate r' v ∧ decayRate r v = decayRate r' v ∧ sustain r v = sustain r' v ∧
      releaseRate r v = releaseRate r' v := by
  simp only [freq, pulseWidth, controlByte, attackRate, decayRate, sustain, releaseRate, h, and_self]

/-- The control bits of a voice are functions of its control register (R26). -/
theorem control_views_congr (h : controlByte r v = controlByte r' v) :
    sync r v = sync r' v ∧ ring r v = ring r' v ∧ testBit r v = testBit r' v ∧ waveSelect r v = waveSelect r' v := by
  simp only [sync, ring, testBit, waveSelect, h, and_self]

/-- The envelope stage reads a voice's own registers only (R190). -/
theorem envelopeVoice_congr (t : Config.Tables) (h : ∀ k : Fin 7, voiceReg r v k = voiceReg r' v k) (x : Voice) :
    envelopeVoice t r v x = envelopeVoice t r' v x := by
  obtain ⟨-, -, -, hattack, hdecay, hsustain, hrelease⟩ := voice_views_congr h
  have hperiod : envPeriod t r v = envPeriod t r' v := funext fun st => by
    cases st <;> simp only [envPeriod, hattack, hdecay, hrelease]
  have hstep : decayStep t r v = decayStep t r' v := funext fun y => by simp only [decayStep, decrement, hsustain]
  simp only [envelopeVoice, hperiod, hstep]

/-- The oscillator stage of a voice reads the chip model, the voice's own registers and state, and its source's snapshot (R160, R163,
R164). -/
theorem oscillateVoice_congr (t : Config.Tables) {e e' : Engine} (hmodel : e.model = e'.model)
    (hreg : ∀ k : Fin 7, voiceReg e.reg v k = voiceReg e'.reg v k) (hvoice : e.voices[v] = e'.voices[v])
    (hmsb : e.voices[sourceVoice v].snapMsb = e'.voices[sourceVoice v].snapMsb)
    (hfall : e.voices[sourceVoice v].snapFall = e'.voices[sourceVoice v].snapFall) :
    oscillateVoice t e v = oscillateVoice t e' v := by
  obtain ⟨hfreq, hwidth, hcontrol, -⟩ := voice_views_congr hreg
  obtain ⟨hsync, hring, htest, hsel⟩ := control_views_congr hcontrol
  have hacc : ∀ b acc, nextAcc e.reg v b acc = nextAcc e'.reg v b acc := fun b acc => by
    unfold nextAcc syncResets; rw [htest, hsync, hfreq]
  have htri : ∀ b acc, triangle e.reg v b acc = triangle e'.reg v b acc := fun b acc => by
    unfold triangle foldBit; rw [hring]
  have hpulse : ∀ acc, pulse e.reg v acc = pulse e'.reg v acc := fun acc => by unfold pulse; rw [hwidth]
  have hback : noiseWritesBack e.reg v = noiseWritesBack e'.reg v := by unfold noiseWritesBack; rw [hsel, htest]
  unfold oscillateVoice
  dsimp only
  rw [hvoice, hmsb, hfall, hacc, htri, hpulse, hmodel, hsel, htest, hback]

end

/-- Settles O39: with no write falling due the two stages make the voice, and each reads no more than the two engines share. -/
theorem voiceDependsOnItselfAndItsSourceSnapshot : Obligations.VoiceDependsOnItselfAndItsSourceSnapshot := by
  intro s s' t t' e e' e1 e1' v u hs hs' h h' ht ht' hq hq' hu hmodel hreg hvoice hmsb hfall
  obtain rfl := eq_sourceVoice hu
  obtain ⟨ss, hc⟩ := exec_clock_one_next hs h ht
  obtain ⟨ss', hc'⟩ := exec_clock_one_next hs' h' ht'
  rw [cycle_voice_of_none_due hc hq, cycle_voice_of_none_due hc' hq', oscillateVoice_congr tables hmodel hreg hvoice hmsb hfall,
    envelopeVoice_congr tables hreg]

/-! ### The waveform value -/

section
variable (r : RegFile) (v : VoiceId) (acc : BitVec 24)

theorem sawtooth_toNat : (sawtooth acc).toNat = acc.toNat / 2 ^ 12 := by
  have := acc.isLt
  rw [sawtooth, BitVec.extractLsb'_toNat, Nat.shiftRight_eq_div_pow]
  omega

/-- The triangle's complement turns the accumulator around in its range (R168). -/
theorem triangle_toNat (srcMsb : Bool) :
    (triangle r v srcMsb acc).toNat = (if foldBit r v srcMsb acc then 2 ^ 24 - 1 - acc.toNat else acc.toNat) / 2 ^ 11 % 2 ^ 12 := by
  have hnot : acc ^^^ 0xFFFFFF#24 = ~~~acc := BitVec.xor_allOnes
  unfold triangle
  split
  · rw [BitVec.toNat_setWidth, toNat_shiftRight, hnot, BitVec.toNat_not]
  · rw [BitVec.toNat_setWidth, toNat_shiftRight]

/-- Folding is the exclusive or of the accumulator's top bit with RING and the source's (R168). -/
theorem foldBit_iff (srcMsb : Bool) :
    foldBit r v srcMsb acc = true ↔ (2 ^ 23 ≤ acc.toNat ↔ ¬((voiceReg r v 4).getLsbD 2 = true ∧ srcMsb = true)) := by
  rw [foldBit, topBit_eq_decide, ring, controlByte, ← Bool.and_eq_true]
  by_cases h : 2 ^ 23 ≤ acc.toNat
  · rw [decide_eq_true h, Bool.true_xor, Bool.not_eq_true', Bool.not_eq_true, iff_true_left h]
  · rw [decide_eq_false h, Bool.false_xor, iff_false_left h, not_not]

end

/-- Every bit of the all-ones waveform value is 1. -/
theorem ones_getLsbD {k : Nat} (hk : k < 12) : (0xFFF#12).getLsbD k = true := by
  show (BitVec.allOnes 12).getLsbD k = true
  rw [BitVec.getLsbD_allOnes, decide_eq_true hk]

/-- The pulse is all ones from the pulse width on, and 0 below it (R169). -/
theorem pulse_getLsbD (r : RegFile) (v : VoiceId) (acc : BitVec 24) {k : Nat} (hk : k < 12) :
    (pulse r v acc).getLsbD k = true ↔ 256 * ((voiceReg r v 3).toNat % 16) + (voiceReg r v 2).toNat ≤ acc.toNat / 2 ^ 12 := by
  have hsaw : (acc.extractLsb' 12 12).toNat = acc.toNat / 2 ^ 12 := sawtooth_toNat acc
  rw [pulse, hsaw, pulseWidth_toNat]
  split
  case isTrue hle => exact iff_of_true (ones_getLsbD hk) hle
  case isFalse hlt => exact iff_of_false (by simp) hlt

/-- Setting bits pair by pair: bit `k` is set at the start, or a pair for `k` reads 1 in `sr` (R172). -/
theorem getLsbD_foldl_set (sr : BitVec 23) (taps : List (Nat × Nat)) (w : Wave) {k : Nat} (hk : k < 12) :
    (taps.foldl (fun w (p : Nat × Nat) => if sr.getLsbD p.2 then w ||| BitVec.twoPow 12 p.1 else w) w).getLsbD k =
      (w.getLsbD k || taps.any fun p => p.1 == k && sr.getLsbD p.2) := by
  induction taps generalizing w with
  | nil => simp
  | cons p ps ih =>
    rw [List.foldl_cons, ih, List.any_cons, ← Bool.or_assoc]
    congr 1
    cases hsr : sr.getLsbD p.2
    · simp
    · rcases eq_or_ne p.1 k with rfl | hp
      · simp [hk]
      · simp [hp, hp.symm, hk]

/-- The noise output, bit by bit: the upper eight bits are taps of the register (R172). -/
theorem noiseOutput_getLsbD (sr : BitVec 23) {k : Nat} (hk : k < 12) :
    (noiseOutput sr).getLsbD k = true ↔ 4 ≤ k ∧ sr.getLsbD ([2, 4, 7, 11, 13, 16, 20, 22].getD (k - 4) 0) = true := by
  rw [noiseOutput, getLsbD_foldl_set sr noiseTaps 0 hk]
  interval_cases k <;> simp [noiseTaps]

/-- With something selected the waveform value is the default combination: a value selected alone is its own (R174, R175). -/
theorem waveform_eq_combAnd (model : ChipModel) {sel : BitVec 4} (h : sel ≠ 0) (tri saw pul noi : Wave) :
    waveform tables model sel tri saw pul noi = combAnd sel tri saw pul noi := by
  have hones : ∀ w : Wave, w &&& 0xFFF#12 = w ∧ 0xFFF#12 &&& w = w := fun _ => ⟨BitVec.and_allOnes, BitVec.allOnes_and⟩
  have hsel : ∀ n, sel.toNat = n → sel = BitVec.ofNat 4 n := fun n hn => by rw [← hn, BitVec.ofNat_toNat, BitVec.setWidth_eq]
  unfold waveform
  split
  case h_1 hn => exact absurd (hsel 0 hn) h
  case h_2 hn => obtain rfl := hsel 1 hn; simp [combAnd, selectedOrOnes, hones]
  case h_3 hn => obtain rfl := hsel 2 hn; simp [combAnd, selectedOrOnes, hones]
  case h_4 hn => obtain rfl := hsel 4 hn; simp [combAnd, selectedOrOnes, hones]
  case h_5 hn => obtain rfl := hsel 8 hn; simp [combAnd, selectedOrOnes, hones]
  case h_6 => rfl

theorem selectedOrOnes_getLsbD {selected : Bool} {w : Wave} {k : Nat} (hk : k < 12) :
    (selectedOrOnes selected w).getLsbD k = true ↔ (selected = true → w.getLsbD k = true) := by
  cases selected
  · simpa [selectedOrOnes] using ones_getLsbD hk
  · simp [selectedOrOnes]

/-- The waveform value bit by bit, under the default COMB: 0 with none selected, else the AND of the selected ones (R173 to R175). -/
theorem waveform_getLsbD (model : ChipModel) (sel : BitVec 4) (tri saw pul noi : Wave) {k : Nat} (hk : k < 12) :
    (waveform tables model sel tri saw pul noi).getLsbD k = true ↔
      sel ≠ 0 ∧ (sel.getLsbD 0 = true → tri.getLsbD k = true) ∧ (sel.getLsbD 1 = true → saw.getLsbD k = true) ∧
        (sel.getLsbD 2 = true → pul.getLsbD k = true) ∧ (sel.getLsbD 3 = true → noi.getLsbD k = true) := by
  by_cases h : sel = 0
  · subst h
    simp [waveform]
  · rw [waveform_eq_combAnd model h]
    simp only [combAnd, BitVec.getLsbD_and, Bool.and_eq_true, selectedOrOnes_getLsbD hk, h, not_false_eq_true, ne_eq, true_and,
      and_assoc]

/-- A bit of the waveform selection is a bit of the control register (R26). -/
theorem waveSelect_getLsbD (r : RegFile) (v : VoiceId) {i : Nat} (hi : i < 4) :
    (waveSelect r v).getLsbD i = (voiceReg r v 4).getLsbD (4 + i) := by
  simp [waveSelect, controlByte, hi]

theorem waveSelect_eq_zero_iff {r : RegFile} {v : VoiceId} : waveSelect r v = 0 ↔ (voiceReg r v 4).toNat / 16 = 0 := by
  rw [← BitVec.toNat_inj, waveSelect, toNat_high_nibble]
  rfl

/-- The accumulator after stages 1 and 2 is the oscillator's (R190). -/
theorem voiceStages_acc (t : Config.Tables) (e : Engine) (v : VoiceId) :
    (voiceStages t e).voices[v].acc = nextAcc e.reg v e.voices[sourceVoice v].snapFall e.voices[v].acc := by
  obtain ⟨hacc, -⟩ := envelopeVoice_frame t e.reg v (oscillateVoice t e v).1
  rw [voiceStages_voice, hacc]
  rfl

/-- The waveform value of a cycle step, from the new accumulator and the clocked noise register (R160, R173). -/
theorem waveforms_eq (t : Config.Tables) (e : Engine) (v : VoiceId) :
    waveforms t e v =
      waveform t e.model (waveSelect e.reg v)
        (triangle e.reg v e.voices[sourceVoice v].snapMsb (voiceStages t e).voices[v].acc)
        (sawtooth (voiceStages t e).voices[v].acc) (pulse e.reg v (voiceStages t e).voices[v].acc)
        (noiseOutput (clockedNoise e v)) := by
  rw [voiceStages_acc]
  rfl

/-- Settles O40: the AND of the selected waveforms, each read off bit by bit. -/
theorem waveformIsTheAndOfTheSelected : Obligations.WaveformIsTheAndOfTheSelected := by
  rintro e v u k _ sr1 fold hu hk rfl hsr1 hfold
  obtain rfl := eq_sourceVoice hu
  obtain rfl : sr1 = clockedNoise e v := by rw [hsr1, voiceStages_acc]; rfl
  obtain rfl : fold = foldBit e.reg v e.voices[sourceVoice v].snapMsb (voiceStages tables e).voices[v].acc :=
    Bool.eq_iff_iff.2 (hfold.trans (foldBit_iff ..).symm)
  rw [waveforms_eq, waveform_getLsbD _ _ _ _ _ _ hk, ne_eq, waveSelect_eq_zero_iff, waveSelect_getLsbD _ _ (by decide),
    waveSelect_getLsbD _ _ (by decide), waveSelect_getLsbD _ _ (by decide), waveSelect_getLsbD _ _ (by decide),
    ← triangle_toNat, ← pulse_getLsbD e.reg v _ hk, ← sawtooth_toNat, ← noiseOutput_getLsbD _ hk]
  rfl

end Sys2Proof.Machine


/-! SUPPORT. The envelope generators: their tables as numbers, the envelope stage of one voice case by case, the direction in which it
moves the level, and what a CLOCK makes of it. -/

namespace Sys2Proof.Machine

/-! ### The tables (R191 to R193) -/

/-- Settles O44: the largest product, 17 * 15, still fits in a byte. -/
theorem sustainLevelIsSeventeenTimes : Obligations.SustainLevelIsSeventeenTimes := fun x =>
  (BitVec.toNat_ofNat ..).trans (Nat.mod_eq_of_lt (by have := x.isLt; omega))

/-- The period of a rate is the entry of R191's list at its number. -/
theorem getD_ratePeriod {x : BitVec 4} {k : Nat} (h : x.toNat = k) :
    [9, 32, 63, 95, 149, 220, 267, 313, 392, 977, 1954, 3126, 3907, 11720, 19532, 31251].getD k 0 = ratePeriod x := by
  subst h
  revert x
  decide

/-- Every period is a value the rate counter takes (R191, R194). -/
theorem ratePeriod_reachable (x : BitVec 4) : 1 ≤ ratePeriod x ∧ ratePeriod x ≤ 0x7FFF := by
  unfold ratePeriod
  split <;> decide

/-- Settles O45: the list is read off row by row, and each row is in the counter's range. -/
theorem ratePeriodTable : Obligations.RatePeriodTable := ⟨by decide, ratePeriod_reachable⟩

/-! ### The envelope stage of one voice, case by case (R194 to R199) -/

/-- The rate counter's next value fits in its 15 bits (R194). -/
theorem toNat_ofNat_rateCount (rc : BitVec 15) : (BitVec.ofNat 15 (rateCount rc)).toNat = rateCount rc := by
  have hlt : rateCount rc < 2 ^ 15 := by
    have := rc.isLt
    unfold rateCount
    split <;> omega
  rw [BitVec.toNat_ofNat, Nat.mod_eq_of_lt hlt]

section
variable {t : Config.Tables} {r : RegFile} {v : VoiceId} {x : Voice}

/-- Without a match only the rate counter moves (R190, R194). -/
theorem envelopeVoice_of_ne (h : rateCount x.rc ≠ envPeriod t r v x.envState) :
    envelopeVoice t r v x = { x with rc := BitVec.ofNat 15 (rateCount x.rc) } := if_neg h

/-- A match in ATTACK (R190, R196). -/
theorem envelopeVoice_of_attack (h : rateCount x.rc = envPeriod t r v x.envState) (hx : x.envState = .attack) :
    envelopeVoice t r v x = attackStep { x with rc := 0 } := by
  simp only [envelopeVoice]
  rw [if_pos h, hx]

/-- A match in DECAY_SUSTAIN or RELEASE (R190, R197). -/
theorem envelopeVoice_of_not_attack (h : rateCount x.rc = envPeriod t r v x.envState) (hx : x.envState ≠ .attack) :
    envelopeVoice t r v x = decayStep t r v { x with rc := 0 } := by
  simp only [envelopeVoice, if_pos h]
  cases hst : x.envState with
  | attack => exact absurd hst hx
  | decaySustain => rfl
  | release => rfl

/-- A match sets the rate counter to 0, whatever the stage (R194). -/
theorem envelopeVoice_rc_of_match (h : rateCount x.rc = envPeriod t r v x.envState) : (envelopeVoice t r v x).rc = 0 := by
  by_cases hx : x.envState = .attack
  · rw [envelopeVoice_of_attack h hx]
    rfl
  · rw [envelopeVoice_of_not_attack h hx]
    unfold decayStep
    split <;> rfl

/-- The attack adds 1 to the level and saturates at 255 (R196). -/
theorem attackStep_env_toNat (x : Voice) : (attackStep x).env.toNat = min 255 (x.env.toNat + 1) := by
  unfold attackStep
  dsimp only
  split <;> bv_omega

/-- The attack ends when the level it leaves is 255 (R196). -/
theorem attackStep_envState (x : Voice) :
    (attackStep x).envState = if 254 ≤ x.env.toNat then .decaySustain else x.envState := by
  have hfull : (attackStep x).env = 0xFF ↔ 254 ≤ x.env.toNat := by
    rw [← BitVec.toNat_inj, attackStep_env_toNat]
    simp
  exact if_congr hfull rfl rfl

/-- Short of the stretch only the exponential counter moves (R197). -/
theorem decayStep_of_lt (h : x.ec + 1 < t.expPeriod x.env) : decayStep t r v x = { x with ec := x.ec + 1 } := if_pos h

/-- At the stretch the exponential counter starts again and one decrement is due (R197). -/
theorem decayStep_of_ge (h : t.expPeriod x.env ≤ x.ec + 1) :
    decayStep t r v x = { x with ec := 0, env := decrement t r v x } := if_neg h.not_gt

/-- A due decrement stops at 0 in both stages, and at the sustain level in DECAY_SUSTAIN (R198, R199). -/
theorem decrement_toNat (t : Config.Tables) (r : RegFile) (v : VoiceId) (x : Voice) :
    (decrement t r v x).toNat =
      if x.env.toNat = 0 ∨ (x.envState = .decaySustain ∧ x.env.toNat = (t.sustainLevel (sustain r v)).toNat) then x.env.toNat
      else x.env.toNat - 1 := by
  have hzero : x.env = 0 ↔ x.env.toNat = 0 := BitVec.toNat_inj.symm
  have hfalls : x.env ≠ 0 → (x.env - 1).toNat = x.env.toNat - 1 := fun h => by bv_omega
  simp only [decrement, ite_or, ← hzero, BitVec.toNat_inj]
  split_ifs with h0 hsustain
  · rfl
  · rfl
  · exact hfalls h0

/-! ### The direction of the level (R201) -/

/-- In ATTACK the stage keeps the level or adds 1. -/
theorem envelopeVoice_env_of_attack (hx : x.envState = .attack) :
    x.env.toNat ≤ (envelopeVoice t r v x).env.toNat ∧ (envelopeVoice t r v x).env.toNat ≤ x.env.toNat + 1 := by
  by_cases h : rateCount x.rc = envPeriod t r v x.envState
  · rw [envelopeVoice_of_attack h hx, attackStep_env_toNat]
    have := x.env.isLt
    dsimp only
    omega
  · rw [envelopeVoice_of_ne h]
    exact ⟨le_rfl, Nat.le_succ _⟩

/-- In the other two stages it keeps the level or takes 1 off. -/
theorem envelopeVoice_env_of_not_attack (hx : x.envState ≠ .attack) :
    (envelopeVoice t r v x).env.toNat ≤ x.env.toNat ∧ x.env.toNat ≤ (envelopeVoice t r v x).env.toNat + 1 := by
  by_cases h : rateCount x.rc = envPeriod t r v x.envState
  · rw [envelopeVoice_of_not_attack h hx]
    unfold decayStep
    split
    · exact ⟨le_rfl, Nat.le_succ _⟩
    · dsimp only
      rw [decrement_toNat]
      dsimp only
      split <;> omega
  · rw [envelopeVoice_of_ne h]
    exact ⟨le_rfl, Nat.le_succ _⟩

/-- The envelope stage never enters ATTACK: only a gate edge does (R200). -/
theorem envState_of_envelopeVoice_attack (h : (envelopeVoice t r v x).envState = .attack) : x.envState = .attack := by
  by_contra hx
  by_cases hmatch : rateCount x.rc = envPeriod t r v x.envState
  · rw [envelopeVoice_of_not_attack hmatch hx, decayStep_envState] at h
    exact hx h
  · rw [envelopeVoice_of_ne hmatch] at h
    exact hx h

end

/-! ### CLOCK -/

/-- Settles O41: with no write falling due the step of a voice's envelope is the envelope stage, on the fields the oscillator stage
left, and each clause is one of its cases. -/
theorem envelopeStep : Obligations.EnvelopeStep := by
  intro s t e e1 v x y c period stretch hs h ht hq hx hy hc hperiod hstretch
  obtain ⟨ss, hcycle⟩ := exec_clock_one_next hs h ht
  rw [cycle_voice_of_none_due hcycle hq] at hy
  obtain ⟨hst, henv, hrc, hec⟩ := oscillateVoice_frame tables e v
  rw [← hx] at hst henv hrc hec
  generalize (oscillateVoice tables e v).1 = o at hy hst henv hrc hec
  rw [← hrc] at hc
  rw [← henv] at hstretch
  have hperiod' : period = envPeriod tables e.reg v o.envState := by
    rw [hperiod, hst]
    cases x.envState with
    | attack => exact getD_ratePeriod (toNat_high_nibble _)
    | decaySustain => exact getD_ratePeriod (toNat_low_bits _ 4)
    | release => exact getD_ratePeriod (toNat_low_bits _ 4)
  obtain rfl : c = rateCount o.rc := hc
  obtain rfl : stretch = tables.expPeriod o.env := hstretch
  subst hy hperiod'
  rw [← hst, ← henv, ← hec]
  refine ⟨fun hne => ?_, fun heq => ⟨envelopeVoice_rc_of_match heq, fun hatt => ?_, fun hnot => ?_⟩⟩
  · rw [envelopeVoice_of_ne hne]
    exact ⟨toNat_ofNat_rateCount _, rfl, rfl, rfl⟩
  · rw [envelopeVoice_of_attack heq hatt, attackStep_env_toNat, attackStep_envState]
    exact ⟨rfl, rfl, by rw [hatt]⟩
  · rw [envelopeVoice_of_not_attack heq hnot]
    refine ⟨decayStep_envState .., fun hlt => ?_, fun hge => ?_⟩
    · rw [decayStep_of_lt (x := { o with rc := 0 }) hlt]
      exact ⟨rfl, rfl⟩
    · rw [decayStep_of_ge (x := { o with rc := 0 }) hge]
      have hsustain : (tables.sustainLevel (sustain e.reg v)).toNat = 17 * ((voiceReg e.reg v 6).toNat / 16) :=
        (sustainLevelIsSeventeenTimes _).trans (congrArg (17 * ·) (toNat_high_nibble _))
      exact ⟨rfl, by rw [decrement_toNat, hsustain]⟩

/-- A cycle step leaves the level where the envelope stage put it, whatever falls due (R121, R122, R261). -/
theorem cycle_env {t : Config.Tables} {e e1 : Engine} {ss : List Sample} (h : cycle t e = .ok (e1, ss)) (v : VoiceId) :
    e1.voices[v].env = (envelopeVoice t e.reg v (oscillateVoice t e v).1).env := by
  obtain ⟨-, rfl, -⟩ := cycle_ok h
  obtain ⟨-, -, -, henv, -, -⟩ :=
    applyDue_voice_frame { (resampleStep t (pipeline t e).1 (pipeline t e).2).1 with cyc := e.cyc + 1 } v
  rw [henv, resampleStep_voices, pipeline_voices, voiceStages_voice]

/-- Settles O42: no write that falls due touches the level, so the envelope stage alone moves it. -/
theorem envelopeLevelMovesByOneInItsDirection : Obligations.EnvelopeLevelMovesByOneInItsDirection := by
  intro s t e e1 v hs h ht
  obtain ⟨ss, hc⟩ := exec_clock_one_next hs h ht
  obtain ⟨hst, henv, -, -⟩ := oscillateVoice_frame tables e v
  rw [cycle_env hc, ← hst, ← henv]
  exact ⟨envelopeVoice_env_of_attack, envelopeVoice_env_of_not_attack⟩

/-- Settles O43: a step that ends in ATTACK began in it and did not lower the level, and so did the run. -/
theorem attackNeverLowersTheLevel : Obligations.AttackNeverLowersTheLevel := by
  intro n s t e e1 v hs h ht hq
  obtain ⟨ss, hr⟩ := exec_clock_next hs h ht
  rw [← Int.ofNat_toNat] at hq
  refine runCycles_induction (P := fun x => x.voices[v].envState = .attack →
    e.voices[v].envState = .attack ∧ e.voices[v].env.toNat ≤ x.voices[v].env.toNat) ?_ hr hq fun hatt => ⟨hatt, le_rfl⟩
  intro x x1 _ hqx hc ih hatt
  rw [cycle_voice_of_none_due hc hqx] at hatt ⊢
  have hbefore := envState_of_envelopeVoice_attack hatt
  obtain ⟨hstart, hle⟩ := ih hbefore
  exact ⟨hstart, hle.trans (envelopeVoice_env_of_attack hbefore).1⟩

end Sys2Proof.Machine


/-! SUPPORT. The mixer: what one voice contributes, as a number and in range, which path takes it, and the two sums. -/

namespace Sys2Proof.Machine

/-! ### One voice's value (R221, R222) -/

/-- A voice is silent when TEST is set or its four selection bits are 0 (R221). -/
theorem voiceSilent_iff {r : RegFile} {v : VoiceId} :
    voiceSilent r v = true ↔ (voiceReg r v 4).getLsbD 3 = true ∨ (voiceReg r v 4).toNat / 16 = 0 := by
  rw [voiceSilent, Bool.or_eq_true, beq_iff_eq]
  exact or_congr Iff.rfl waveSelect_eq_zero_iff

theorem voiceOutput_eq (c : Config.Tables) (model : ChipModel) (r : RegFile) (v : VoiceId) (w : Wave) (env : BitVec 8) :
    voiceOutput c model r v w env =
      if (voiceReg r v 4).getLsbD 3 = true ∨ (voiceReg r v 4).toNat / 16 = 0 then c.voiceDc model / 2 ^ 7
      else ((((c.waveDac model w).toNat : Int) - c.waveZero model) * ((c.envDac model env).toNat : Int) + c.voiceDc model) / 2 ^ 7 := by
  simp only [voiceOutput, shiftDown, voiceSilent_iff]

/-- Rounding down keeps a symmetric bound that is a multiple of the divisor. -/
theorem abs_shiftDown_le {x b : Int} (h : |x| ≤ 2 ^ 7 * b) : |shiftDown x 7| ≤ b := by
  rw [abs_le] at h ⊢
  unfold shiftDown
  omega

/-- A 12-bit value less its mid-scale, times an 8-bit value: the product of the two largest magnitudes bounds it (R226). -/
theorem abs_biased_mul_le (w : BitVec 12) (x : BitVec 8) : |((w.toNat : Int) - 0x800) * (x.toNat : Int)| ≤ 2 ^ 7 * 4080 := by
  have hwave : |(w.toNat : Int) - 0x800| ≤ 0x800 := by
    rw [abs_le]
    omega
  have hlevel : |(x.toNat : Int)| ≤ 255 := by
    rw [abs_le]
    omega
  calc |((w.toNat : Int) - 0x800) * (x.toNat : Int)|
      = |(w.toNat : Int) - 0x800| * |(x.toNat : Int)| := abs_mul ..
    _ ≤ 0x800 * 255 := mul_le_mul hwave hlevel (abs_nonneg _) (by decide)
    _ = 2 ^ 7 * 4080 := by decide

/-- A voice's value under the default biases, whatever the DAC tables hold (R226). -/
theorem abs_voiceOutput_le {c : Config.Tables} {model : ChipModel} (hzero : c.waveZero model = 0x800) (hdc : c.voiceDc model = 0)
    (r : RegFile) (v : VoiceId) (w : Wave) (env : BitVec 8) : |voiceOutput c model r v w env| ≤ 4080 := by
  unfold voiceOutput
  split
  case isTrue => exact abs_shiftDown_le (by rw [hdc]; decide)
  case isFalse =>
    refine abs_shiftDown_le ?_
    rw [hzero, hdc, add_zero]
    exact abs_biased_mul_le ..

/-! ### Where it goes (R223, R224) -/

theorem directPart_eq (r : RegFile) (v : VoiceId) (x : Int) :
    directPart r v x = if r[23].getLsbD v.val = true ∨ (v = 2 ∧ r[24].getLsbD 7 = true) then 0 else x :=
  (ite_or ..).symm

/-- No voice takes both paths: what is sent to the filter and what bypasses it weigh no more than the voice's value. -/
theorem abs_parts_le (r : RegFile) (v : VoiceId) (x : Int) : |filteredPart r v x| + |directPart r v x| ≤ |x| := by
  have hx := abs_nonneg x
  unfold filteredPart directPart
  split_ifs
  case pos => rw [abs_zero, add_zero]
  case pos => rwa [abs_zero, add_zero]
  case neg => rw [abs_zero, zero_add]

/-! ### The two sums (R220, R223 to R225) -/

/-- `vo[v]` of the cycle step, as the mixer computes it (R220). -/
def mixedVoice (c : Config.Tables) (e : Engine) (w : VoiceId → Wave) (v : VoiceId) : Int :=
  voiceOutput c e.model e.reg v (w v) e.voices[v].env

section
variable (c : Config.Tables) (e : Engine) (w : VoiceId → Wave)

theorem mixer_fst :
    (mixer c e w).1 = (∑ v, filteredPart e.reg v (mixedVoice c e w v)) + if filtex e.reg then c.extIn else 0 := by
  rw [Fin.sum_univ_three]
  rfl

theorem mixer_snd :
    (mixer c e w).2 = (∑ v, directPart e.reg v (mixedVoice c e w v)) + if filtex e.reg then 0 else c.extIn := by
  rw [Fin.sum_univ_three]
  rfl

end

/-- Without an external input both paths together weigh no more than the three voices. -/
theorem abs_mixer_le {c : Config.Tables} (hext : c.extIn = 0) (e : Engine) (w : VoiceId → Wave) :
    |(mixer c e w).1| + |(mixer c e w).2| ≤ ∑ v, |mixedVoice c e w v| := by
  rw [mixer_fst, mixer_snd, hext, ite_self, add_zero, add_zero]
  calc |∑ v, filteredPart e.reg v (mixedVoice c e w v)| + |∑ v, directPart e.reg v (mixedVoice c e w v)|
      ≤ (∑ v, |filteredPart e.reg v (mixedVoice c e w v)|) + ∑ v, |directPart e.reg v (mixedVoice c e w v)| :=
        add_le_add (Finset.abs_sum_le_sum_abs ..) (Finset.abs_sum_le_sum_abs ..)
    _ = ∑ v, (|filteredPart e.reg v (mixedVoice c e w v)| + |directPart e.reg v (mixedVoice c e w v)|) :=
        Finset.sum_add_distrib.symm
    _ ≤ ∑ v, |mixedVoice c e w v| := Finset.sum_le_sum fun v _ => abs_parts_le e.reg v _

/-- Settles O46: the stated values are the mixer's own, and each sum takes a voice by its routing bits. -/
theorem mixerRoutesTheVoices : Obligations.MixerRoutesTheVoices := by
  intro c e w vo hvo
  obtain rfl : vo = mixedVoice c e w := funext fun v => (hvo v).trans (voiceOutput_eq ..).symm
  refine ⟨mixer_fst c e w, ?_⟩
  simp only [mixer_snd, directPart_eq]
  rfl

/-- Settles O47: three voices of at most 4080 each, and none of them on both paths. -/
theorem mixerOutputIsBounded : Obligations.MixerOutputIsBounded := by
  intro c e w hzero hdc hext
  have hsum : |(mixer c e w).1| + |(mixer c e w).2| ≤ 12240 :=
    calc |(mixer c e w).1| + |(mixer c e w).2|
        ≤ ∑ v, |mixedVoice c e w v| := abs_mixer_le hext e w
      _ ≤ ∑ _v : VoiceId, 4080 := Finset.sum_le_sum fun v _ => abs_voiceOutput_le hzero hdc e.reg v (w v) _
      _ = 12240 := by decide
  exact ⟨(le_add_of_nonneg_right (abs_nonneg _)).trans hsum, (le_add_of_nonneg_left (abs_nonneg _)).trans hsum, hsum⟩

end Sys2Proof.Machine


/-! SUPPORT. The filter and the output stage: one cycle step's recurrence as numbers, the fault when it leaves 32 bits, and the cycle
sample as a number. -/

namespace Sys2Proof.Machine

/-! ### The recurrence and its range (R242 to R244, R249) -/

/-- The three variables of R249, each in the signed 32-bit range. -/
theorem filterInRange_iff {f : FilterState} :
    filterInRange f = true ↔ ∀ x ∈ [f.vhp, f.vbp, f.vlp], -2 ^ 31 ≤ x ∧ x ≤ 2 ^ 31 - 1 := by
  simp only [filterInRange, inInt32, Bool.and_eq_true, decide_eq_true_eq, List.forall_mem_cons, List.not_mem_nil, false_imp_iff,
    implies_true, and_true, and_assoc]

theorem filterInRange_eq_false_iff {f : FilterState} :
    filterInRange f = false ↔ ∃ x ∈ [f.vhp, f.vbp, f.vlp], x < -2 ^ 31 ∨ 2 ^ 31 - 1 < x := by
  rw [← Bool.not_eq_true, filterInRange_iff]
  simp only [not_forall, not_and_or, not_le, exists_prop]

/-- W0 is looked up at the number `fc` of the two cutoff registers (R242). -/
theorem cutoff_eq_ofNat (r : RegFile) : cutoff r = BitVec.ofNat 11 (8 * r[22].toNat + r[21].toNat % 8) := by
  rw [← cutoff_toNat, BitVec.ofNat_toNat, BitVec.setWidth_eq]

/-- INVQ at its default, at the number `res` (R243). -/
theorem tables_invQ_resonance (model : ChipModel) (r : RegFile) :
    (tables.invQ model (resonance r) : Int) = 15360000 / (10605 + 1000 * ((r[23].toNat / 16 : Nat) : Int)) := by
  rw [← toNat_high_nibble]
  exact_mod_cast rfl

/-- The filter state of a cycle step is the recurrence with the coefficients that the registers select (R244). -/
theorem filtered_tables (e : Engine) :
    filtered tables e =
      filterUpdate (Config.w0 e.model (BitVec.ofNat 11 (8 * e.reg[22].toNat + e.reg[21].toNat % 8)))
        (15360000 / (10605 + 1000 * ((e.reg[23].toNat / 16 : Nat) : Int))) (mixed tables e).1 e.filter := by
  rw [← cutoff_eq_ofNat, ← tables_invQ_resonance e.model]
  rfl

/-! ### CLOCK of one cycle -/

section
variable {s : State} {e e1 : Engine} {ss : List Sample}

/-- A cycle step that completes is a CLOCK of one cycle that completes (R107). -/
theorem exec_clock_one_of_cycle (hs : s.inst = .running e) (hmax : e.cyc < 9223372036854775807) (h : cycle tables e = .ok (e1, ss)) :
    exec (.clock 1) s = .next (finish s e1 { status := 0, data := 0, samples := ss }) :=
  exec_clock_of_run hs (by omega) (runCycles_snoc (n := 0) rfl h)

/-- A cycle step that faults ends a CLOCK of one cycle (R249, R107). -/
theorem exec_clock_one_of_fault {f : Fault} (hs : s.inst = .running e) (hmax : e.cyc < 9223372036854775807)
    (h : cycle tables e = .error f) : exec (.clock 1) s = .fault f := by
  have hrun : runCycles tables (Int.toNat 1) e = .error f := by
    show runCycles tables (0 + 1) e = _
    rw [runCycles, h]
  rw [exec_clock, clockCommand, onRunning_running hs, if_neg (by rw [cycleMax_tables]; omega), hrun]

end

/-- Settles O29: the recurrence in numbers is the filter state of the cycle step, whose range decides between completing and the fault. -/
theorem cycleStepFaultsExactlyOnFilterOverflow : Obligations.CycleStepFaultsExactlyOnFilterOverflow := by
  rintro s e w0 q vi vhp vbp vlp hs hmax rfl rfl rfl hvbp hvlp hvhp
  have hfiltered : filtered tables e = { vhp := vhp, vbp := vbp, vlp := vlp } := by
    rw [filtered_tables, hvhp, hvbp, hvlp]
    rfl
  refine ⟨fun hin => ?_, fun hout => ?_⟩
  · have hc := cycle_of_inRange (t := tables) (e := e) (by rw [hfiltered]; exact filterInRange_iff.2 hin)
    obtain ⟨-, -, -, -, hfilter⟩ := cycle_frame hc
    exact ⟨_, _, exec_clock_one_of_cycle hs hmax hc, rfl, hfilter.trans hfiltered⟩
  · exact exec_clock_one_of_fault hs hmax (cycle_of_not_inRange (by rw [hfiltered]; exact filterInRange_eq_false_iff.2 hout))

/-! ### The cycle sample (R245 to R248) -/

/-- A value clamped to 16 bits loses nothing as a sample (R248, R86). -/
theorem toInt_toSample_clamp16 (x : Int) : (toSample (clamp16 x)).toInt = max (-32768) (min 32767 x) := by
  have hclamp : clamp16 x = max (-32768) (min 32767 x) := by
    unfold clamp16 clamp
    split_ifs <;> omega
  rw [hclamp, toSample]
  exact BitVec.toInt_ofInt_eq_self (by decide) (by norm_num) (by norm_num)

/-- DIST is the identity for MOS8580 and the table for MOS6581 (R246). -/
theorem distort_tables (model : ChipModel) (x : Int) :
    distort tables model x = if model = .mos8580 then x else Config.dist6581 x := by
  cases model <;> rfl

/-- The output stage as a number, with MIXER_DC at its default 0 (R247, R248). -/
theorem cycleSample_toInt (e : Engine) (f : FilterState) (vnf : Int) :
    (cycleSample tables e f vnf).toInt =
      max (-32768) (min 32767
        ((vnf + distort tables e.model (tapSum e.reg f)) * ((e.reg[24].toNat % 16 : Nat) : Int) / 11)) := by
  have hdc : tables.mixerDc e.model = 0 := rfl
  have hvol : (volume e.reg).toNat = e.reg[24].toNat % 16 := toNat_low_bits _ 4
  rw [cycleSample, outputLevel, toInt_toSample_clamp16, hdc, add_zero, hvol]
  rfl

/-- A cycle step leaves its cycle sample as the next step's `y_prev`, whatever falls due (R272). -/
theorem cycle_yPrev {t : Config.Tables} {e e1 : Engine} {ss : List Sample} (h : cycle t e = .ok (e1, ss)) :
    e1.resampler.yPrev = (pipeline t e).2 := by
  obtain ⟨-, rfl, -⟩ := cycle_ok h
  obtain ⟨-, -, -, -, -, hres⟩ := applyDue_frame { (resampleStep t (pipeline t e).1 (pipeline t e).2).1 with cyc := e.cyc + 1 }
  rw [hres, resampleStep_eq]

/-- Settles O48: `y_prev` after the step is the output stage's sample of the filter state after it. -/
theorem cycleSampleIsTheScaledSum : Obligations.CycleSampleIsTheScaledSum := by
  rintro s t e e1 taps vd hs h ht htaps rfl
  obtain ⟨ss, hc⟩ := exec_clock_one_next hs h ht
  obtain ⟨-, -, -, -, hfilter⟩ := cycle_frame hc
  have hsum : tapSum e.reg (filtered tables e) = taps := by
    rw [htaps, hfilter]
    rfl
  rw [cycle_yPrev hc, pipeline, cycleSample_toInt, voiceStages_reg, voiceStages_model, hsum, distort_tables]

end Sys2Proof.Machine


/-! SUPPORT. The samples of a CLOCK: how many the emission loop emits and to which instant each belongs, and their values by the four
methods. -/

namespace Sys2Proof.Machine

/-! ### The samples of a cycle step (R264, R273) -/

/-- The `k`-th turn of the emission loop has subtracted the rate `k + 1` times, and emits the sample of what is left (R264). -/
theorem emitLoop_getElem? {f : Nat → Sample × Bool} {clk n racc k : Nat} {x : Sample}
    (h : (emitLoop f clk n racc).2.1[k]? = some x) : (k + 1) * clk ≤ racc ∧ x = (f (racc - (k + 1) * clk)).1 := by
  induction n generalizing racc k with
  | zero => cases h
  | succ n ih =>
    unfold emitLoop at h
    split at h
    case isFalse => cases h
    case isTrue hle =>
      cases k with
      | zero => exact ⟨by omega, by simpa [eq_comm] using h⟩
      | succ k =>
        obtain ⟨hk, hx⟩ := ih (by simpa using h)
        have hsplit : (k + 1 + 1) * clk = clk + (k + 1) * clk := by rw [Nat.succ_mul (k + 1), Nat.add_comm]
        rw [hsplit, ← Nat.sub_sub]
        exact ⟨by omega, hx⟩

/-- To divide in two steps, carrying the remainder, is to divide the sum. -/
theorem div_add_mod_add_div (a b : Nat) {c : Nat} (hc : 0 < c) : a / c + (a % c + b) / c = (a + b) / c := by
  rw [← Nat.mul_add_div hc, ← Nat.add_assoc, Nat.div_add_mod]

section
variable {t : Config.Tables} {e e1 : Engine} {ss : List Sample}

/-- The accumulator after a cycle step and the samples of the step are what the emission loop answers, on the history and the cycle
sample that the step leaves (R263, R264, R272). -/
theorem cycle_emitLoop (h : cycle t e = .ok (e1, ss)) :
    ∃ b, emitLoop (sampleAt t e.samp e1.resampler.hist e.resampler.yPrev e1.resampler.yPrev) e.samp.clk
      ((e.resampler.racc + e.samp.out) / e.samp.clk) (e.resampler.racc + e.samp.out) = (e1.resampler.racc, ss, b) := by
  obtain ⟨-, rfl, rfl⟩ := cycle_ok h
  obtain ⟨-, -, -, -, -, hres⟩ := applyDue_frame { (resampleStep t (pipeline t e).1 (pipeline t e).2).1 with cyc := e.cyc + 1 }
  rw [hres, resampleStep_eq]
  exact ⟨_, rfl⟩

/-- A cycle step divides: as many samples as the quotient, and the remainder stays (R264, R273). -/
theorem cycle_sample_count (hclk : 0 < e.samp.clk) (h : cycle t e = .ok (e1, ss)) :
    ss.length = (e.resampler.racc + e.samp.out) / e.samp.clk ∧
      e1.resampler.racc = (e.resampler.racc + e.samp.out) % e.samp.clk := by
  obtain ⟨b, hloop⟩ := cycle_emitLoop h
  obtain ⟨hracc, hlen⟩ := emitLoop_div
    (sampleAt t e.samp e1.resampler.hist e.resampler.yPrev e1.resampler.yPrev) hclk _ (e.resampler.racc + e.samp.out) le_rfl
  rw [hloop] at hracc hlen
  exact ⟨hlen, hracc⟩

/-- The `k`-th sample of a cycle step is the method's sample at `r = racc + out - (k + 1) * clk` (R264). -/
theorem cycle_sample {k : Nat} {x : Sample} (h : cycle t e = .ok (e1, ss)) (hk : ss[k]? = some x) :
    (k + 1) * e.samp.clk ≤ e.resampler.racc + e.samp.out ∧
      x = (sampleAt t e.samp e1.resampler.hist e.resampler.yPrev e1.resampler.yPrev
        (e.resampler.racc + e.samp.out - (k + 1) * e.samp.clk)).1 := by
  obtain ⟨b, hloop⟩ := cycle_emitLoop h
  exact emitLoop_getElem? (by rw [hloop]; exact hk)

/-- A run of `n` cycle steps divides what they add to the accumulator (R273). -/
theorem runCycles_sample_count {n : Nat} (hracc : e.resampler.racc < e.samp.clk) (h : runCycles t n e = .ok (e1, ss)) :
    ss.length = (e.resampler.racc + n * e.samp.out) / e.samp.clk ∧
      e1.resampler.racc = (e.resampler.racc + n * e.samp.out) % e.samp.clk := by
  induction n generalizing e1 ss with
  | zero =>
    obtain ⟨rfl, rfl⟩ := Prod.mk.inj (Except.ok.inj h)
    rw [Nat.zero_mul, Nat.add_zero, Nat.div_eq_of_lt hracc, Nat.mod_eq_of_lt hracc]
    exact ⟨rfl, rfl⟩
  | succ n ih =>
    obtain ⟨e2, ss1, ss2, hr, hc, rfl⟩ := runCycles_succ_last h
    obtain ⟨hlen, hleft⟩ := ih hr
    obtain ⟨-, hsamp, -, -⟩ := runCycles_frame hr
    have hclk : 0 < e.samp.clk := Nat.zero_lt_of_lt hracc
    obtain ⟨hlen', hleft'⟩ := cycle_sample_count (hsamp ▸ hclk) hc
    rw [hsamp, hleft] at hlen' hleft'
    rw [List.length_append, hlen, hlen', hleft', div_add_mod_add_div _ _ hclk, Nat.mod_add_mod, Nat.succ_mul, ← Nat.add_assoc]
    exact ⟨rfl, rfl⟩

end

section
variable {s t : State} {e e1 : Engine} {ss : List Sample}

/-- CLOCK answers the engine and the samples of its run of cycle steps (R107). -/
theorem exec_clock_samples {n : Int} (hs : s.inst = .running e) (h : exec (.clock n) s = .next t) (ht : t.inst = .running e1)
    (hr : t.response = some { status := 0, data := 0, samples := ss }) : runCycles tables n.toNat e = .ok (e1, ss) := by
  rw [exec_clock] at h
  obtain ⟨e', e2, ss', he, -, hrun, rfl⟩ := clockCommand_next h
  obtain rfl := Instance.running.inj (hs.symm.trans he)
  obtain rfl := Instance.running.inj ht
  obtain rfl : ss' = ss := congrArg Response.samples (Option.some.inj hr)
  exact hrun

/-- The `k`-th sample of a CLOCK of one cycle is the method's sample at `r = racc + out - (k + 1) * clk` (R107, R264). -/
theorem exec_clock_one_sample {k : Nat} {x : Sample} (hs : s.inst = .running e) (h : exec (.clock 1) s = .next t)
    (ht : t.inst = .running e1) (hr : t.response = some { status := 0, data := 0, samples := ss }) (hk : ss[k]? = some x) :
    (k + 1) * e.samp.clk ≤ e.resampler.racc + e.samp.out ∧
      x = (sampleAt tables e.samp e1.resampler.hist e.resampler.yPrev e1.resampler.yPrev
        (e.resampler.racc + e.samp.out - (k + 1) * e.samp.clk)).1 := by
  obtain ⟨e2, ss1, ss2, hc, hrest, rfl⟩ := runCycles_succ_ok (n := 0) (exec_clock_samples hs h ht hr)
  obtain ⟨rfl, rfl⟩ := Prod.mk.inj (Except.ok.inj hrest)
  exact cycle_sample hc (by rwa [List.append_nil] at hk)

end

/-- Settles O31: the run of `n` cycle steps divides, step by step, what it adds to the accumulator. -/
theorem clockReturnsTheSampleCount : Obligations.ClockReturnsTheSampleCount := by
  intro n s t e hs hracc h
  rw [exec_clock] at h
  obtain ⟨e', e1, ss, he, -, hrun, rfl⟩ := clockCommand_next h
  obtain rfl := Instance.running.inj (hs.symm.trans he)
  exact ⟨e1, _, rfl, rfl, runCycles_sample_count hracc hrun⟩

/-! ### FAST and INTERPOLATE (R265, R266) -/

section
variable {t : Config.Tables} {c : SamplingConfig} {h : List Sample} {yPrev y : Sample} {r : Nat}

theorem sampleAt_fast (hm : c.method = .fast) : (sampleAt t c h yPrev y r).1 = fastSample c.out r yPrev y := by
  simp only [sampleAt, hm]

theorem sampleAt_interpolate (hm : c.method = .interpolate) :
    (sampleAt t c h yPrev y r).1 = toSample (interpolated c.out r yPrev.toInt y.toInt) := by
  simp only [sampleAt, hm]

theorem sampleAt_resample (hm : c.method = .resample) :
    sampleAt t c h yPrev y r = resampleSample (t.fir c.method c.clk c.out c.pass) h c.out r := by
  simp only [sampleAt, hm]

theorem sampleAt_resampleFastmem (hm : c.method = .resampleFastmem) :
    sampleAt t c h yPrev y r = fastmemSample (t.fir c.method c.clk c.out c.pass) h c.out r := by
  simp only [sampleAt, hm]

end

/-- A rounded-down share `a / n` of a difference lies between 0 and the difference (R266). -/
theorem share_between (d : Int) {a n : Int} (hn : 0 < n) (ha : 0 ≤ a) (han : a ≤ n) :
    min 0 d ≤ d * a / n ∧ d * a / n ≤ max 0 d := by
  obtain hd | hd := le_total 0 d
  · rw [min_eq_left hd, max_eq_right hd]
    exact ⟨Int.ediv_nonneg (mul_nonneg hd ha) hn.le, Int.ediv_le_of_le_mul hn (mul_le_mul_of_nonneg_left han hd)⟩
  · rw [min_eq_right hd, max_eq_left hd]
    exact ⟨(Int.le_ediv_iff_mul_le hn).2 (mul_le_mul_of_nonpos_left han hd),
      Int.ediv_le_of_le_mul hn (by rw [zero_mul]; exact mul_nonpos_of_nonpos_of_nonneg hd ha)⟩

/-- An instant inside the cycle interpolates to a value between the two cycle samples (R266). -/
theorem interpolated_between {out r : Nat} (hr : r < out) (yPrev y : Int) :
    min yPrev y ≤ interpolated out r yPrev y ∧ interpolated out r yPrev y ≤ max yPrev y := by
  obtain ⟨hlow, hhigh⟩ := share_between (y - yPrev) (a := (out : Int) - r) (n := out) (by omega) (by omega) (by omega)
  unfold interpolated floorDiv
  omega

/-- A value between two samples is a sample, and needs no clamp (R266, log entry 11). -/
theorem toInt_toSample_of_between {yPrev y : Sample} {x : Int} (hlow : min yPrev.toInt y.toInt ≤ x)
    (hhigh : x ≤ max yPrev.toInt y.toInt) : (toSample x).toInt = x := by
  have := BitVec.le_toInt yPrev
  have := BitVec.le_toInt y
  have := BitVec.toInt_lt (x := yPrev)
  have := BitVec.toInt_lt (x := y)
  exact BitVec.toInt_ofInt_eq_self (by decide) (by omega) (by omega)

/-- Settles O51: the emission loop gives each sample its instant, which lies inside the cycle. -/
theorem fastAndInterpolateSamples : Obligations.FastAndInterpolateSamples := by
  rintro s t e e1 ss k r x hs h ht hresp hracc hk rfl
  obtain ⟨hle, rfl⟩ := exec_clock_one_sample hs h ht hresp hk
  have hclk : e.samp.clk ≤ (k + 1) * e.samp.clk := Nat.le_mul_of_pos_left _ k.succ_pos
  refine ⟨sampleAt_fast, fun hm => ?_⟩
  obtain ⟨hlow, hhigh⟩ := interpolated_between
    (r := e.resampler.racc + e.samp.out - (k + 1) * e.samp.clk) (out := e.samp.out) (by omega)
    e.resampler.yPrev.toInt e1.resampler.yPrev.toInt
  rw [sampleAt_interpolate hm, toInt_toSample_of_between hlow hhigh]
  exact ⟨rfl, hlow, hhigh⟩

/-! ### The sinc methods (R267 to R270) -/

/-- The sum of R269 at the row `p` of a kernel, `d` cycles back. -/
def kernelSum (k : Config.Kernel) (h : List Sample) (p d : Nat) : Int :=
  ∑ j ∈ Finset.range k.taps, k.weight p j * (histAt h (j + d)).toInt

/-- The sum at the row after `p`: after the last row comes row 0 one cycle back (R269). -/
def nextRowSum (k : Config.Kernel) (h : List Sample) (p : Nat) : Int :=
  if p + 1 < k.phases then kernelSum k h (p + 1) 0 else kernelSum k h 0 1

/-- What RESAMPLE interpolates between the rows on either side of the instant (R269). -/
def betweenRows (k : Config.Kernel) (h : List Sample) (out r : Nat) : Int :=
  kernelSum k h (phaseRow k out r) 0 +
    (nextRowSum k h (phaseRow k out r) - kernelSum k h (phaseRow k out r) 0) * (phaseRest k out r : Int) / (out : Int)

section
variable (k : Config.Kernel) (h : List Sample)

/-- A convolution of the whole kernel, delayed by a cycle at most, is its sum: the kernel fits the history (R268, R271). -/
theorem convolve_kernel (p : Nat) {d : Nat} (hd : d ≤ 1) : convolve (k.weight p) h d k.taps = (kernelSum k h p d, false) :=
  convolve_eq_sum _ _ _ _ ((Nat.add_le_add_left hd _).trans (kernel_fits k))

theorem fastmemSample_eq (out r : Nat) :
    fastmemSample k h out r = (toSample (clamp16 (kernelSum k h (phaseRow k out r) 0 / 2 ^ k.shift)), false) := by
  simp only [fastmemSample, convolve_kernel k h _ (Nat.zero_le 1), shiftDown]

theorem resampleSample_eq (out r : Nat) :
    resampleSample k h out r = (toSample (clamp16 (betweenRows k h out r / 2 ^ k.shift)), false) := by
  have hnext : (if phaseRow k out r + 1 < k.phases then convolve (k.weight (phaseRow k out r + 1)) h 0 k.taps
      else convolve (k.weight 0) h 1 k.taps) = (nextRowSum k h (phaseRow k out r), false) := by
    rw [convolve_kernel k h _ (Nat.zero_le 1), convolve_kernel k h _ le_rfl, nextRowSum]
    split <;> rfl
  unfold resampleSample
  dsimp only
  rw [hnext, convolve_kernel k h _ (Nat.zero_le 1)]
  rfl

end

/-- Settles O52: the emission loop gives each sample its instant, and the two methods are their sums over the kernel. -/
theorem sincMethodSamples : Obligations.SincMethodSamples := by
  rintro s t e e1 ss k r p x kern v1 v2 v hs h ht hresp hk rfl rfl rfl rfl rfl hfastmem hresample hm
  obtain ⟨-, rfl⟩ := exec_clock_one_sample hs h ht hresp hk
  obtain hm | hm := hm
  · rw [sampleAt_resample hm, resampleSample_eq, toInt_toSample_clamp16, hresample hm]
    rfl
  · rw [sampleAt_resampleFastmem hm, fastmemSample_eq, toInt_toSample_clamp16, hfastmem hm]
    rfl

/-! ### A constant signal (R268 to R270) -/

section
variable {k : Config.Kernel} {h : List Sample} {y : Sample}
  (hgain : ∀ p, p < k.phases → ∑ j ∈ Finset.range k.taps, k.weight p j = 2 ^ k.shift)
  (hconst : ∀ j, j ≤ k.taps → histAt h j = y)
include hgain hconst

/-- A row of unit gain over a constant history is the constant, scaled by the gain. -/
theorem kernelSum_const {p d : Nat} (hp : p < k.phases) (hd : d ≤ 1) : kernelSum k h p d = 2 ^ k.shift * y.toInt := by
  rw [← hgain p hp, Finset.sum_mul]
  refine Finset.sum_congr rfl fun j hj => ?_
  have := Finset.mem_range.1 hj
  rw [hconst (j + d) (by omega)]

theorem nextRowSum_const (p : Nat) : nextRowSum k h p = 2 ^ k.shift * y.toInt := by
  unfold nextRowSum
  split
  case isTrue hp => exact kernelSum_const hgain hconst hp (Nat.zero_le 1)
  case isFalse => exact kernelSum_const hgain hconst (Nat.succ_pos _) le_rfl

/-- Between two rows of the same sum there is nothing to interpolate. -/
theorem betweenRows_const {out r : Nat} (hrow : phaseRow k out r < k.phases) : betweenRows k h out r = 2 ^ k.shift * y.toInt := by
  rw [betweenRows, nextRowSum_const hgain hconst, kernelSum_const hgain hconst hrow (Nat.zero_le 1), sub_self, zero_mul,
    Int.zero_ediv, add_zero]

end

/-- An instant inside the cycle has its row in the kernel (R267). -/
theorem phaseRow_lt (k : Config.Kernel) {out r : Nat} (hr : r < out) : phaseRow k out r < k.phases :=
  (Nat.div_lt_iff_lt_mul (Nat.zero_lt_of_lt hr)).2 (by rw [Nat.mul_comm]; exact Nat.mul_lt_mul_of_pos_left hr (Nat.succ_pos _))

/-- A sample scaled by the gain, shifted down and clamped is the sample (R269, R270). -/
theorem toSample_clamp16_scaled (y : Sample) (n : Nat) : toSample (clamp16 (2 ^ n * y.toInt / 2 ^ n)) = y := by
  rw [Int.mul_ediv_cancel_left _ (by positivity)]
  apply BitVec.eq_of_toInt_eq
  have := BitVec.le_toInt y
  have := BitVec.toInt_lt (x := y)
  rw [toInt_toSample_clamp16]
  omega

/-- Settles O53: every sum over the kernel is the constant scaled by the gain, and so is what lies between two of them. -/
theorem constantIsReproduced : Obligations.ConstantIsReproduced := by
  intro kern h y out r hr hgain hconst
  have hrow := phaseRow_lt kern hr
  rw [resampleSample_eq, fastmemSample_eq, betweenRows_const hgain hconst hrow,
    kernelSum_const hgain hconst hrow (Nat.zero_le 1), toSample_clamp16_scaled]
  exact ⟨rfl, rfl⟩

end Sys2Proof.Machine


/-! SUPPORT. The queue over a CLOCK: a run does not see the entries that fall due at its end, which are applied in order after it, and
what a run of applications stores and does to a voice. -/

namespace Sys2Proof.Machine

/-! ### A run of applications (R120 to R122, R262) -/

/-- A run of applications leaves the queue. -/
theorem foldl_applyWrite_wq (ps : List PendingWrite) (e : Engine) :
    (ps.foldl (fun x p => applyWrite p.addr p.value x) e).wq = e.wq := by
  induction ps generalizing e with
  | nil => rfl
  | cons p ps ih => exact (ih _).trans (applyWrite_wq ..)

/-- A run of applications changes registers and voices alone. -/
theorem foldl_applyWrite_eq (ps : List PendingWrite) (e : Engine) :
    ps.foldl (fun x p => applyWrite p.addr p.value x) e =
      { e with
        reg := (ps.foldl (fun x p => applyWrite p.addr p.value x) e).reg
        voices := (ps.foldl (fun x p => applyWrite p.addr p.value x) e).voices } := by
  obtain ⟨hmodel, hsamp, hcyc, hdiag, hfilter, hresampler⟩ := foldl_applyWrite_frame ps e
  rw [← hmodel, ← hsamp, ← hcyc, ← hdiag, ← hfilter, ← hresampler, ← foldl_applyWrite_wq ps e]

/-- The registers after a run of applications: the masked values, stored in order (R23, R120). -/
theorem foldl_applyWrite_reg (ps : List PendingWrite) (e : Engine) :
    (ps.foldl (fun x p => applyWrite p.addr p.value x) e).reg =
      ps.foldl (fun r p => r.set p.addr (maskedValue p.addr p.value)) e.reg :=
  (List.foldl_hom Engine.reg fun x p => (applyWrite_reg p.addr p.value x).symm).symm

/-- The effect of a write on the control register `c` and on its voice, with the byte and its edges in numbers (R120 to R122). -/
def controlEffect (c : RegAddr) (q : Byte × Voice) (p : PendingWrite) : Byte × Voice :=
  let new : Byte := BitVec.ofNat 8 (p.value % 256).toNat
  if p.addr = c then
    (new, { q.2 with
      envState := if q.1.getLsbD 0 = false ∧ new.getLsbD 0 = true then .attack
        else if q.1.getLsbD 0 = true ∧ new.getLsbD 0 = false then .release else q.2.envState
      sr := if q.1.getLsbD 3 = true ∧ new.getLsbD 3 = false then 0x7FFFF8#23 else q.2.sr })
  else q

section
variable {v : VoiceId} {c : RegAddr} (hc : c.val = 7 * v.val + 4)
include hc

/-- APPLY acts on a control register and its voice by `controlEffect`; a write of any other register leaves both. -/
theorem applyWrite_controlEffect (p : PendingWrite) (e : Engine) :
    controlEffect c (e.reg[c], e.voices[v]) p =
      ((applyWrite p.addr p.value e).reg[c], (applyWrite p.addr p.value e).voices[v]) := by
  have hcv : controlVoice c = some v := controlVoice_some.2 hc
  rw [applyWrite_voice, applyWrite_reg, controlEffect]
  by_cases hp : p.addr = c
  · rw [if_pos hp, hp, if_pos hcv, testEdge_eq, gateEdge_eq, maskedValue_of_control hcv]
    simp [readReg]
  · have hpc : p.addr.val ≠ c.val := fun h => hp (Fin.ext h)
    have hother : controlVoice p.addr ≠ some v := fun h => hpc ((controlVoice_some.1 h).trans hc.symm)
    rw [if_neg hp, if_neg hother]
    simp [hpc]

/-- A control register and its voice after a run of applications: the effects in order, each on what the one before left (R329). -/
theorem foldl_applyWrite_controlEffect (ps : List PendingWrite) (e : Engine) :
    ((ps.foldl (fun x p => applyWrite p.addr p.value x) e).reg[c], (ps.foldl (fun x p => applyWrite p.addr p.value x) e).voices[v]) =
      ps.foldl (controlEffect c) (e.reg[c], e.voices[v]) :=
  (List.foldl_hom (fun x : Engine => (x.reg[c], x.voices[v])) fun x p => applyWrite_controlEffect hc p x).symm

end

/-! ### CLOCK up to the stamp (R262) -/

/-- A run that ends before the first stamp of the queue does not see the queue. -/
theorem runCycles_of_queue {t : Config.Tables} {n : Nat} {e e1 : Engine} {ss : List Sample} {q : List PendingWrite}
    (h : runCycles t n e = .ok (e1, ss)) (he : ∀ p ∈ e.wq, e.cyc + n < p.stamp) (hq : ∀ p ∈ q, e.cyc + n < p.stamp) :
    runCycles t n { e with wq := q } = .ok ({ e1 with wq := q }, ss) := by
  induction n generalizing e1 ss with
  | zero =>
    obtain ⟨rfl, rfl⟩ := Prod.mk.inj (Except.ok.inj h)
    rfl
  | succ n ih =>
    obtain ⟨e2, ss1, ss2, hr, hc, rfl⟩ := runCycles_succ_last h
    push_cast at he hq
    have hbefore : ∀ p ∈ e.wq, e.cyc + n < p.stamp := fun p hp => by have := he p hp; omega
    obtain ⟨-, hwq⟩ := runCycles_of_none_due hr hbefore
    obtain ⟨-, -, hcyc, -⟩ := runCycles_frame hr
    have hlast : ∀ p ∈ e2.wq, e2.cyc + 1 < p.stamp := fun p hp => by have := he p (hwq ▸ hp); omega
    have hlast' : ∀ p ∈ q, e2.cyc + 1 < p.stamp := fun p hp => by have := hq p hp; omega
    obtain ⟨hc', -, -⟩ := cycle_of_queue hc q hlast hlast'
    exact runCycles_snoc (ih hr hbefore fun p hp => by have := hq p hp; omega) hc'

/-- The run that reaches the stamp of the entries `due`: the run without them, and then their application in order. -/
theorem runCycles_of_due {t : Config.Tables} {n : Nat} {e e1 : Engine} {ss : List Sample} {due rest : List PendingWrite}
    (h : runCycles t (n + 1) e = .ok (e1, ss)) (hq : e.wq = due ++ rest) (hd : ∀ p ∈ due, p.stamp = e.cyc + n + 1)
    (hr : ∀ p ∈ rest, e.cyc + n + 1 < p.stamp) :
    ∃ e0, runCycles t (n + 1) { e with wq := rest } = .ok (e0, ss) ∧ e0.reg = e.reg ∧ e0.wq = rest ∧ e0.cyc = e.cyc + n + 1 ∧
      e1 = due.foldl (fun x p => applyWrite p.addr p.value x) e0 := by
  obtain ⟨e2, ss1, ss2, hrun, hc, rfl⟩ := runCycles_succ_last h
  have hrest : ∀ p ∈ rest, e.cyc + n < p.stamp := fun p hp => by have := hr p hp; omega
  have hall : ∀ p ∈ e.wq, e.cyc + n < p.stamp := by
    rw [hq, List.forall_mem_append]
    exact ⟨fun p hp => by have := hd p hp; omega, hrest⟩
  obtain ⟨hreg, hwq⟩ := runCycles_of_none_due hrun hall
  obtain ⟨-, -, hcyc, -⟩ := runCycles_frame hrun
  rw [← hcyc] at hd hr ⊢
  obtain ⟨e0, hc0, hreg0, hwq0, hcyc0, rfl⟩ := cycle_of_due hc (hwq.trans hq) hd hr
  exact ⟨e0, runCycles_snoc (runCycles_of_queue hrun hall hrest) hc0, hreg0.trans hreg, hwq0, hcyc0, rfl⟩

/-- Settles O33: a run that ends before the stamp sees no entry, and the run that reaches it is the run without the due ones and then
their application in order. -/
theorem queuedWritesApplyInOrder : Obligations.QueuedWritesApplyInOrder := by
  intro stamp s e due rest hs hq hlt hd hr
  refine ⟨fun n t hn h => ?_, fun t h => ?_⟩
  · obtain ⟨e1, ht, -, -, -, -, -, hkeep⟩ := clockKeepsWhatItMust n s t e hs h
    refine ⟨e1, ht, hkeep ?_⟩
    rw [hq, List.forall_mem_append]
    exact ⟨fun p hp => by have := hd p hp; omega, fun p hp => by have := hr p hp; omega⟩
  · obtain ⟨e', e1, ss, he, hmax, hrun, rfl⟩ := clockCommand_next h
    obtain rfl := Instance.running.inj (hs.symm.trans he)
    obtain ⟨n, hn⟩ : ∃ n : Nat, stamp = e.cyc + n + 1 := ⟨(stamp - e.cyc - 1).toNat, by omega⟩
    have htoNat : (stamp - e.cyc).toNat = n + 1 := by omega
    rw [htoNat] at hrun
    rw [hn] at hd hr
    obtain ⟨e0, hrun0, hreg0, hwq0, hcyc0, rfl⟩ := runCycles_of_due hrun hq hd hr
    obtain ⟨-, -, hcyc1, -, -, -⟩ := foldl_applyWrite_frame due e0
    rw [cycleMax_tables] at hmax
    refine ⟨_, e0, _, exec_clock_of_run rfl hmax (by rw [htoNat]; exact hrun0), rfl, rfl, foldl_applyWrite_eq due e0,
      hcyc1.trans (hcyc0.trans hn.symm), (foldl_applyWrite_wq due e0).trans hwq0, ?_, fun v c hc => ?_⟩
    · rw [foldl_applyWrite_reg, hreg0]
      simp only [maskedValue_eq_mod_and_mask]
    · rw [foldl_applyWrite_controlEffect hc, hreg0]
      rfl

end Sys2Proof.Machine


/-! SUPPORT. What has no effect, and silence: an address that selects nothing, a command past CYCLE_MAX, an invalid configuration, the
engine after RESET over a CLOCK of any length, and the command words that the spec prints. -/

namespace Sys2Proof.Machine

/-! ### Addresses that select nothing (R148, R291) -/

/-- Settles O12: the three rows end in the error class of an address that selects nothing, whose status is 0. -/
theorem outOfRangeAddressDoesNothing : Obligations.OutOfRangeAddressDoesNothing :=
  fun _ _ _ hs ha =>
    ⟨fun value stamp => writeCommand_nowhere hs tables value stamp ha, readCommand_nowhere hs ha, readCommand_nowhere hs ha⟩

/-! ### Beyond CYCLE_MAX (R304) -/

section
variable {c : Config.Tables} {s : State} {e : Engine}

/-- CLOCK that would pass CYCLE_MAX, under any record (R304). -/
theorem clockCommand_of_cycleMax_lt (hs : s.inst = .running e) {n : Int} (h : cycleMax c < e.cyc + max n 0) :
    clockCommand c n s = .refused .beyondCycleMax := by
  rw [clockCommand, onRunning_running hs, if_pos h]

/-- WRITE to a register stamped above CYCLE_MAX, under any record (R304). -/
theorem writeCommand_of_cycleMax_lt (hs : s.inst = .running e) (a : RegAddr) (value : Int) {stamp : Int} (h : cycleMax c < stamp) :
    writeCommand c a.val value stamp s = .refused .beyondCycleMax := by
  simp only [writeCommand, onRunning_running hs, registerAt_val, if_pos h]

end

/-- Settles O13: CLOCK and every register form of WRITE check the bound before they act. -/
theorem beyondCycleMaxIsRefused : Obligations.BeyondCycleMaxIsRefused := by
  refine fun s e hs => ⟨fun n h => clockCommand_of_cycleMax_lt hs h, fun i a value stamp hi h => ?_⟩
  rw [exec_registerWrite hi]
  exact writeCommand_of_cycleMax_lt hs a value h

/-! ### Invalid configurations (R102, R293) -/

theorem modelOfCode_eq_none_iff {code : BitVec 2} : modelOfCode code = none ↔ 2 ≤ code.toNat := by
  revert code; decide

theorem methodOfCode_eq_none_iff {code : BitVec 3} : methodOfCode code = none ↔ 4 ≤ code.toNat := by
  revert code; decide

section
variable {model : BitVec 2} {method : BitVec 3} {clk out : Int} {pass : Option Int} {s : State} {e : Engine}

/-- What makes a sampling configuration invalid (R102). -/
theorem validSampling_eq_none_iff : validSampling method clk out pass = none ↔ 4 ≤ method.toNat ∨ clk ≤ 0 ∨ out ≤ 0 := by
  rw [← methodOfCode_eq_none_iff, validSampling]
  cases methodOfCode method with
  | none => simp
  | some m => simp [imp_iff_not_or]

/-- A configuration error and a completed command answer different statuses (R86, R290). -/
theorem takeError_invalidSamplingConfig_ne_finish : takeError .invalidSamplingConfig s ≠ finish s e okResponse := by
  intro h
  have hresponse := congrArg State.response h
  rw [takeError_response, finish_response] at hresponse
  exact absurd hresponse (by decide)

/-- NEW fails exactly when a code names nothing or a rate is not positive (R101, R102). -/
theorem execNew_eq_takeError_iff (hs : s.inst = .unconstructed) :
    execNew model method clk out pass s = .next (takeError .invalidSamplingConfig s) ↔
      modelOfCode model = none ∨ validSampling method clk out pass = none := by
  refine ⟨fun h => ?_, fun h => ?_⟩
  · obtain ⟨-, ⟨m, c, -, -, hfinish⟩ | ⟨hnone, -⟩⟩ := execNew_next h
    · exact absurd hfinish takeError_invalidSamplingConfig_ne_finish
    · exact hnone
  · obtain hm | hc := h
    · simp only [execNew, hs, hm]
    · simp only [execNew, hs, hc]
      cases modelOfCode model <;> rfl

/-- SETSAMPLING fails exactly when the method code names nothing or a rate is not positive (R103, R102). -/
theorem execSetSampling_eq_takeError_iff (hs : s.inst = .running e) :
    execSetSampling method clk out pass s = .next (takeError .invalidSamplingConfig s) ↔
      validSampling method clk out pass = none := by
  refine ⟨fun h => ?_, fun h => ?_⟩
  · obtain ⟨e', -, ⟨c, -, hfinish⟩ | ⟨hnone, -⟩⟩ := execSetSampling_next h
    · exact absurd hfinish takeError_invalidSamplingConfig_ne_finish
    · exact hnone
  · rw [execSetSampling, onRunning_running hs, h]

end

/-- Settles O23: the two commands fail exactly when their codes and rates name no configuration. -/
theorem invalidConfigurationChangesNothing : Obligations.InvalidConfigurationChangesNothing := by
  refine ⟨fun model method clk out pass s hs => ?_, fun method clk out pass s e hs => ?_⟩
  · rw [← modelOfCode_eq_none_iff, ← validSampling_eq_none_iff (pass := pass)]
    exact execNew_eq_takeError_iff hs
  · rw [← validSampling_eq_none_iff (pass := pass)]
    exact execSetSampling_eq_takeError_iff hs

/-! ### A silent engine (R321, R324) -/

/-- The filter is idle, the volume is 0, and the resampler has seen nothing but zeros: what RESET leaves and every cycle step keeps. -/
structure Engine.Silent (e : Engine) : Prop where
  filterIdle : e.FilterIdle
  volume : volume e.reg = 0
  yPrev : e.resampler.yPrev = 0
  hist : e.resampler.hist = []

theorem powerOn_silent (e : Engine) : (powerOn e).Silent where
  filterIdle := ⟨rfl, rfl, by rw [powerOn_reg]; decide⟩
  volume := by rw [powerOn_reg]; decide
  yPrev := rfl
  hist := rfl

/-- At volume 0 the cycle sample is 0, whatever comes out of the filter and the mixer (R248). -/
theorem cycleSample_of_volume_zero {e : Engine} (h : volume e.reg = 0) (t : Config.Tables) (f : FilterState) (vnf : Int) :
    cycleSample t e f vnf = 0 := by
  have hlevel (vo : Int) : outputLevel vo 0 = 0 := by simp [outputLevel, floorDiv, clamp16, clamp]
  rw [cycleSample, h, hlevel]
  rfl

theorem kernelSum_nil (k : Config.Kernel) (p d : Nat) : kernelSum k [] p d = 0 :=
  Finset.sum_eq_zero fun j _ => by simp [histAt]

theorem betweenRows_nil (k : Config.Kernel) (out r : Nat) : betweenRows k [] out r = 0 := by
  simp [betweenRows, nextRowSum, kernelSum_nil]

/-- The sinc methods scale a sum of 0 to the sample 0 (R269, R270). -/
theorem toSample_clamp16_zero_ediv (n : Nat) : toSample (clamp16 (0 / 2 ^ n)) = 0 := by
  rw [Int.zero_ediv]; rfl

/-- Every method makes samples of 0 out of cycle samples of 0, whatever its kernel (R265, R266, R269, R270). -/
theorem sampleAt_silent (t : Config.Tables) (c : SamplingConfig) (r : Nat) : (sampleAt t c [] 0 0 r).1 = 0 := by
  cases hm : c.method with
  | fast => rw [sampleAt_fast hm, fastSample, ite_self]
  | interpolate => rw [sampleAt_interpolate hm]; simp [interpolated, floorDiv, toSample]
  | resample => rw [sampleAt_resample hm, resampleSample_eq, betweenRows_nil, toSample_clamp16_zero_ediv]
  | resampleFastmem => rw [sampleAt_resampleFastmem hm, fastmemSample_eq, kernelSum_nil, toSample_clamp16_zero_ediv]

/-- A cycle step of a silent engine completes with samples of 0 and leaves it silent. -/
theorem Engine.Silent.cycle_completes {e : Engine} (h : e.Silent) :
    ∃ e1 ss, cycle tables e = .ok (e1, ss) ∧ (∀ x ∈ ss, x = 0) ∧ e1.Silent := by
  obtain ⟨e1, ss, hc, hreg, hidle⟩ := h.filterIdle.cycle_completes
  have hy : e1.resampler.yPrev = 0 := (cycle_yPrev hc).trans (cycleSample_of_volume_zero h.volume ..)
  have hhist : e1.resampler.hist = [] := by rw [cycle_hist hc, hy, h.hist]; rfl
  refine ⟨e1, ss, hc, fun x hx => ?_, hidle, by rw [hreg, h.volume], hy, hhist⟩
  obtain ⟨k, hk⟩ := List.mem_iff_getElem?.1 hx
  obtain ⟨-, rfl⟩ := cycle_sample hc hk
  rw [hhist, h.yPrev, hy, sampleAt_silent]

/-- So does a run of any number of cycle steps (R107). -/
theorem Engine.Silent.runCycles_completes {e : Engine} (h : e.Silent) (n : Nat) :
    ∃ e1 ss, runCycles tables n e = .ok (e1, ss) ∧ (∀ x ∈ ss, x = 0) ∧ e1.Silent := by
  induction n with
  | zero => exact ⟨e, [], rfl, by simp, h⟩
  | succ n ih =>
    obtain ⟨e1, ss1, hr, hzero1, hsilent⟩ := ih
    obtain ⟨e2, ss2, hc, hzero2, hsilent'⟩ := hsilent.cycle_completes
    exact ⟨e2, ss1 ++ ss2, runCycles_snoc hr hc, List.forall_mem_append.2 ⟨hzero1, hzero2⟩, hsilent'⟩

/-- Settles O49: the engine is silent after RESET and stays so over the run, whose number of samples R273 gives. -/
theorem clockAfterResetIsSilent : Obligations.ClockAfterResetIsSilent := by
  intro s e hs hclk
  refine ⟨_, resetRestoresPowerOn s e hs, fun n hmax => ?_⟩
  obtain ⟨e1, ss, hrun, hzero, -⟩ := (powerOn_silent e).runCycles_completes n
  obtain ⟨hlen, -⟩ := runCycles_sample_count (e := powerOn e) hclk hrun
  rw [show (powerOn e).resampler.racc = 0 from rfl, Nat.zero_add, powerOn_samp] at hlen
  obtain rfl := List.eq_replicate_iff.2 ⟨hlen, hzero⟩
  exact ⟨_, exec_clock_of_run (e := powerOn e) rfl (by rw [powerOn_cyc]; omega) hrun, rfl⟩

end Sys2Proof.Machine

namespace Sys2Proof

/-! ### The words that the spec prints (95_test_vectors.md section 2.1) -/

/-- A word decodes to the well-formed instruction whose word it is. -/
theorem decode_of_encode_eq {i : Instr} {w : CmdWord} (hwf : i.wf = true) (hw : encode i = w) : decode w = i :=
  hw ▸ decodeInvertsEncode i hwf

/-- Settles O5: each word is the one the encoder gives for the command printed beside it. -/
theorem specWordsDecode : Obligations.SpecWordsDecode := by
  refine ⟨?_, ?_, ?_, ?_, ?_, ?_, ?_, ?_⟩ <;> exact decode_of_encode_eq (by decide) (by decide)

end Sys2Proof
